-- ==== Sys2Proof/Word.lean ====
section
/-! DEFINITION. The word types of the DAC frame transmitter (spec 00_scope.md R8, 30_encoding.md R55, R60, R63). -/

namespace Sys2Proof

/-- A byte is 8 bits (R8): a frame byte, a command byte. -/
abbrev Byte := BitVec 8

/-- The output code is 16 bits, unsigned, full range valid (R8). -/
abbrev Code := BitVec 16

/-- The frame word F, 24 bits (R55, R56). -/
abbrev FrameWord := BitVec 24

/-- A REQ32 or EVT32 word (R60, R63). -/
abbrev Word := BitVec 32

end Sys2Proof
end

