-- ==== Sys2Proof/Syntax.lean ====
section
/-! DEFINITION. Syntax: the result codes, the events of a trace, the 22 rows of the opcode table as ONE inductive,
the words that spell them, and the request syntax of the assembler (30_encoding.md R57–R66). -/

namespace Sys2Proof

/-- The result codes (R64): 0 `OK`, 1 `BUSY`, 2 `ERROR`, 3 `TIMEOUT`. -/
inductive Result where
  | ok
  | busy
  | error
  | timeout
  deriving DecidableEq, Repr, Inhabited

/-- What the blocking primitive may answer (R104): success, busy or error, never a timeout. -/
inductive SendResult where
  | ok
  | busy
  | error
  deriving DecidableEq, Repr, Inhabited

/-- The twelve interface events of a trace (R63), each with its payload. -/
inductive Event where
  | csAssert
  | csDeassert
  | busEnable
  | busDisable
  | pollTxe (v : Bool)
  | pollFtlvl (n : FrameWord)
  | pollBsy (b : Bool)
  | pushByte (b : Byte)
  | pushHalf (b0 b1 : Byte)
  | send3 (f : FrameWord)
  | delay (t : FrameWord)
  | result (r : Result)
  deriving DecidableEq, Repr

/-- The rows of spec/opcode_table.json, one constructor each. The first three are REQ32 (R61, R62), the next seven
FRAME24 (R57–R59), the last twelve EVT32 (R63). -/
inductive Instr where
  /-- TRANSMIT cmd, code (R69). -/
  | transmit (cmd : Byte) (code : Code)
  /-- INIT (R88). -/
  | init
  /-- ILLEGAL_REQUEST (R62): the whole word is kept, so that no bit of it is dropped. -/
  | illegalRequest (w : Word)
  /-- WRBUF_A code: command byte 0x00 (R57). -/
  | wrbufA (code : Code)
  /-- WRBUF_B code: command byte 0x04 (R57). -/
  | wrbufB (code : Code)
  /-- WRLD_A code: command byte 0x10 (R57). -/
  | wrldA (code : Code)
  /-- WRLD_B code: command byte 0x24 (R57). -/
  | wrldB (code : Code)
  /-- WRBUF_B|WRLD_A code: command byte 0x14 (R58). -/
  | wrbufBWrldA (code : Code)
  /-- WRLD_A|WRLD_B code: command byte 0x34 (R58). -/
  | wrldAWrldB (code : Code)
  /-- FRAME_OTHER: one of the 250 other command bytes (R59). -/
  | frameOther (cmd : Byte) (code : Code)
  /-- CS_ASSERT (R105). -/
  | csAssert
  /-- CS_DEASSERT (R106). -/
  | csDeassert
  /-- BUS_ENABLE (R97). -/
  | busEnable
  /-- BUS_DISABLE (R98). -/
  | busDisable
  /-- POLL_TXE(v) (R99). -/
  | pollTxe (v : Bool)
  /-- POLL_FTLVL(n) (R100). -/
  | pollFtlvl (n : FrameWord)
  /-- POLL_BSY(b) (R101). -/
  | pollBsy (b : Bool)
  /-- PUSH_BYTE(b) (R102). -/
  | pushByte (b : Byte)
  /-- PUSH_HALF(b0,b1) (R103). -/
  | pushHalf (b0 b1 : Byte)
  /-- SEND3(F) (R104). -/
  | send3 (f : FrameWord)
  /-- DELAY(t) (R107). -/
  | delay (t : FrameWord)
  /-- RESULT(r) (R108). -/
  | result (r : Result)
  deriving DecidableEq, Repr

/-- A word in one of the three formats of the opcode table. The format is not in the word: a REQ32 word arrives on the
request port, a FRAME24 word is a frame, an EVT32 word stands in a trace. -/
inductive CodeWord where
  | req32 (w : Word)
  | frame24 (f : FrameWord)
  | evt32 (w : Word)
  deriving DecidableEq, Repr

/-- What the host presents on the request port: always one REQ32 word (R60, R67). `asFrame` is no bit of it: it says that the
model runs a TRANSMIT word under the FRAME24 row of its frame (R66; DESIGN CHOICE, log 8), to the same effect. -/
structure Request where
  word    : Word
  asFrame : Bool
  deriving DecidableEq, Repr, Inhabited

/-- Why a word of a trace is no event of this block (R63). -/
inductive DecodeError where
  /-- The kind is 0x00 or 0x0D–0xFF, which are never emitted. -/
  | noSuchKind (kind : Byte)
  /-- A payload bit the row does not name is set. -/
  | payloadNotZero (kind : Byte)
  deriving DecidableEq, Repr

/-- The four command names of R57. -/
inductive CommandName where
  | wrbufA
  | wrbufB
  | wrldA
  | wrldB
  deriving DecidableEq, Repr

/-- A command operand of the assembler: a number, a name, or an OR of them (R65). -/
inductive CommandText where
  | number (n : Nat)
  | name (c : CommandName)
  | or (a b : CommandText)
  deriving DecidableEq, Repr

/-- A request line of the assembler, its operands as written (R65), and the pseudo-instructions (R66). -/
inductive RequestText where
  | transmit (cmd : CommandText) (code : Nat)
  | init
  | pseudo (c : CommandName) (code : Nat)
  deriving DecidableEq, Repr

end Sys2Proof
end

