-- ==== Sys2Proof/Config.lean ====
section
/-! DEFINITION. Config: the block's parameters (00_scope.md R9–R16) and the environment's inputs, which are free values
(10_state.md R34). -/

namespace Sys2Proof

/-- `VARIANT` (R9). -/
inductive Variant where
  | polled
  | blocking
  deriving DecidableEq, Repr

/-- `PUSH_MODE` (R10). -/
inductive PushMode where
  | packed
  | bytewise
  deriving DecidableEq, Repr

/-- A bound that may be absent: `WAIT_BOUND` (R11) and `INIT_MAX_ATTEMPTS` (R13), each `UNBOUNDED` or a number n ≥ 1
(the n ≥ 1 is `Config.legal`). -/
inductive Bound where
  | unbounded
  | atMost (n : Nat)
  deriving DecidableEq, Repr

/-- The parameters of the block (R9–R13, R15). They are fixed for a block: no step writes them. -/
structure Config where
  variant     : Variant
  pushMode    : PushMode
  waitBound   : Bound
  /-- `INIT_RETRY_DELAY`; 24 bits, since `DELAY(t)` records it in a 24-bit payload (R63; DEDUCED, log 22). -/
  retryDelay  : FrameWord
  maxAttempts : Bound
  /-- `FTLVL_WIDTH`, at most 24 (R63). -/
  ftlvlWidth  : Fin 25
  deriving DecidableEq, Repr

/-- The defaults of R9–R13. `FTLVL_WIDTH` is `OPEN` (R15): 24, the widest a trace can record (DESIGN CHOICE, log 4). -/
def Config.standard : Config where
  variant     := .polled
  pushMode    := .packed
  waitBound   := .unbounded
  retryDelay  := 10
  maxAttempts := .unbounded
  ftlvlWidth  := 24

/-- Whose step is next (R7, R123), with the host's input where it is the host's. -/
inductive Move where
  /-- The block steps; `Env`'s answers are the environment's answers to it. -/
  | block
  /-- The bus controller takes a shifting step (R109, R112). -/
  | shift
  /-- The host presents a request (R129). -/
  | request (r : Request)
  /-- The host resets the block (R129, R134). -/
  | reset
  /-- The platform puts pin and bus into their CLEAN_ENTRY state (R134, R136 steps 2–4; DESIGN CHOICE, log 19). -/
  | configure
  deriving DecidableEq, Repr, Inhabited

/-- The inputs of one step (R34), drawn by the environment, never chosen by the model. -/
structure Env where
  move      : Move
  /-- The answer to a TXE poll (R99). -/
  txe       : Bool
  /-- The answer to a FIFO-level poll, of which `FTLVL_WIDTH` bits are read (R100). -/
  ftlvl     : FrameWord
  /-- The answer to a BSY poll (R101). -/
  bsy       : Bool
  /-- The blocking primitive's answer, `none` while it has not returned (R104). -/
  send      : Option SendResult
  /-- What the blocking primitive leaves in `bus_en` (R28, R116; U10). -/
  sendBusEn : Bool
  /-- How many bits of the frame a failed or abandoned blocking send shifted out (R116: "any prefix of F"; U8). -/
  sent      : Nat
  /-- Which pending bits survive an operation outside the bus contract (R114; U4–U6): `true` keeps, a bit with no entry
  is lost. -/
  keep      : List Bool
  /-- Whether the first surviving byte then stands in `sh` already, or still in `Q` (R109, R114; log 15). -/
  started   : Bool
  deriving DecidableEq, Repr, Inhabited

/-- FREE VALUE (log 5): the environment's inputs of the step after draw number `k`. No body, so every behaviour of the
host, the bus controller and the blocking primitive is admitted (R34: "The answer to a poll is never a value the model
invents"). -/
opaque Config.nextEnv (k : Nat) : Env

/-- `TIME_UNIT` (R14), `OPEN`: no rule depends on it (log 20). -/
opaque Config.timeUnit : Nat

/-- `BUS` (R16), `OPEN`: which bus controller this block is wired to (log 20). -/
opaque Config.busId : Nat

/-- `PIN` (R16), `OPEN`: which chip-select pin this block is wired to (log 20). -/
opaque Config.pinId : Nat

/-- `BUS_MODE` (R16): clock polarity, clock phase and bit rate, which the platform configures. -/
structure BusMode where
  polarity : Bool
  phase    : Bool
  bitRate  : Nat
  deriving DecidableEq, Repr, Inhabited

/-- `BUS_MODE` (R16), `OPEN`: no rule of the block reads it (log 20). -/
opaque Config.busMode : BusMode

end Sys2Proof
end

