-- ==== Sys2Proof/WellFormed.lean ====
section
/-! DEFINITION. WellFormed: which terms of Instr are rows of the opcode table, and which configurations are legal. -/

namespace Sys2Proof

/-- `WAIT_BOUND` and `INIT_MAX_ATTEMPTS` are `UNBOUNDED` or a number n ≥ 1 (R11, R13). -/
def Bound.legal : Bound → Bool
  | .unbounded => true
  | .atMost n  => decide (1 ≤ n)

/-- A legal configuration (R11, R13). -/
def Config.legal (c : Config) : Bool :=
  c.waitBound.legal && c.maxAttempts.legal

/-- A FIFO-level answer has `FTLVL_WIDTH` bits (R15, R44). -/
def Config.ftlvlFits (c : Config) (n : FrameWord) : Bool :=
  decide (n.toNat < 2 ^ c.ftlvlWidth.val)

/-- The words that spell TRANSMIT or INIT (R61). -/
def Word.spellsRequest (w : Word) : Bool :=
  w.extractLsb' 24 8 == 0x01#8 || w == 0x02000000#32

/-- The six command bytes of R58: the four of R57 closed under OR. -/
def Byte.isDefinedCommand (c : Byte) : Bool :=
  c == 0x00#8 || c == 0x04#8 || c == 0x10#8 || c == 0x14#8 || c == 0x24#8 || c == 0x34#8

/-- A term of `Instr` that is its row: a catch-all row holds only words no row above it matches (R59, R61, R62), and a
FIFO-level event holds an answer of `FTLVL_WIDTH` bits (R63). -/
def Instr.wf (c : Config) : Instr → Bool
  | .illegalRequest w => !w.spellsRequest
  | .frameOther cmd _ => !cmd.isDefinedCommand
  | .pollFtlvl n      => c.ftlvlFits n
  | .transmit _ _ | .init | .wrbufA _ | .wrbufB _ | .wrldA _ | .wrldB _ | .wrbufBWrldA _ | .wrldAWrldB _
  | .csAssert | .csDeassert | .busEnable | .busDisable | .pollTxe _ | .pollBsy _ | .pushByte _ | .pushHalf _ _
  | .send3 _ | .delay _ | .result _ => true

end Sys2Proof
end

