-- ==== Sys2Proof/Decode.lean ====
section
/-! DEFINITION. Decode: the three formats, each a total decoder, then the encoder, from 30_encoding.md R55–R64 and
opcode_table.json. -/

namespace Sys2Proof

/-! ## Fields -/

/-- `op`, and the kind of an event: bits 31:24 (R60, R63). -/
def wordOp (w : Word) : Byte := w.extractLsb' 24 8

/-- Bits 23:16 of a REQ32 word: `cmd` (R60). -/
def wordCmd (w : Word) : Byte := w.extractLsb' 16 8

/-- Bits 15:0 of a REQ32 word: `code` (R60). -/
def wordCode (w : Word) : Code := w.extractLsb' 0 16

/-- Bits 23:0 of an EVT32 word: the payload (R63). -/
def wordPayload (w : Word) : FrameWord := w.extractLsb' 0 24

/-- `F[23:16]`, the command byte (R55). -/
def frameWordCmd (f : FrameWord) : Byte := f.extractLsb' 16 8

/-- `F[15:0]`, the code (R55, R56). -/
def frameWordCode (f : FrameWord) : Code := f.extractLsb' 0 16

/-- The word of kind `k` and payload `p` (R63). -/
def eventWord (k : Byte) (p : FrameWord) : Word := k ++ p

/-! ## Codes -/

/-- The command bytes of R57. -/
def commandByte : CommandName → Byte
  | .wrbufA => 0x00
  | .wrbufB => 0x04
  | .wrldA  => 0x10
  | .wrldB  => 0x24

/-- The code of a result (R64). -/
def resultCode : Result → BitVec 2
  | .ok      => 0
  | .busy    => 1
  | .error   => 2
  | .timeout => 3

/-- The result of a code (R64). -/
def resultOfCode (c : BitVec 2) : Result :=
  if c = 0 then .ok else if c = 1 then .busy else if c = 2 then .error else .timeout

/-- A status bit of an event's payload (R63: `[0] = v`). -/
def bitPayload (v : Bool) : FrameWord := if v then 1 else 0

/-! ## Decoders -/

/-- REQ32 decoding, total on all 2^32 words (R61). -/
def decodeReq (w : Word) : Instr :=
  if wordOp w = 0x01 then .transmit (wordCmd w) (wordCode w)
  else if wordOp w = 0x02 ∧ wordPayload w = 0 then .init
  else .illegalRequest w

/-- FRAME24 by its command byte, total on all 2^24 words (R57–R59). -/
def decodeFrame (f : FrameWord) : Instr :=
  let c := frameWordCmd f
  let k := frameWordCode f
  if c = 0x00 then .wrbufA k
  else if c = 0x04 then .wrbufB k
  else if c = 0x10 then .wrldA k
  else if c = 0x24 then .wrldB k
  else if c = 0x14 then .wrbufBWrldA k
  else if c = 0x34 then .wrldAWrldB k
  else .frameOther c k

/-- An event whose payload has only the `n` low bits the row names (R63: "Payload bits not named below are 0"). -/
def withPayload (k : Byte) (p : FrameWord) (n : Nat) (e : Event) : Except DecodeError Event :=
  if p.toNat < 2 ^ n then .ok e else .error (.payloadNotZero k)

/-- EVT32 decoding (R63): kinds 0x00 and 0x0D–0xFF are no event. -/
def decodeEvt (w : Word) : Except DecodeError Event :=
  let p := wordPayload w
  let k := wordOp w
  if k = 0x01 then withPayload k p 0 .csAssert
  else if k = 0x02 then withPayload k p 0 .csDeassert
  else if k = 0x03 then withPayload k p 0 .busEnable
  else if k = 0x04 then withPayload k p 0 .busDisable
  else if k = 0x05 then withPayload k p 1 (.pollTxe (p.getLsbD 0))
  else if k = 0x06 then .ok (.pollFtlvl p)
  else if k = 0x07 then withPayload k p 1 (.pollBsy (p.getLsbD 0))
  else if k = 0x08 then withPayload k p 8 (.pushByte (p.extractLsb' 0 8))
  else if k = 0x09 then withPayload k p 16 (.pushHalf (p.extractLsb' 8 8) (p.extractLsb' 0 8))
  else if k = 0x0A then .ok (.send3 p)
  else if k = 0x0B then .ok (.delay p)
  else if k = 0x0C then withPayload k p 2 (.result (resultOfCode (p.extractLsb' 0 2)))
  else .error (.noSuchKind k)

/-- The row an event stands for. -/
def instrOfEvent : Event → Instr
  | .csAssert       => .csAssert
  | .csDeassert     => .csDeassert
  | .busEnable      => .busEnable
  | .busDisable     => .busDisable
  | .pollTxe v      => .pollTxe v
  | .pollFtlvl n    => .pollFtlvl n
  | .pollBsy b      => .pollBsy b
  | .pushByte b     => .pushByte b
  | .pushHalf b0 b1 => .pushHalf b0 b1
  | .send3 f        => .send3 f
  | .delay t        => .delay t
  | .result r       => .result r

/-- A word of any of the three formats: total, an event word that is none rejected by name. -/
def decode : CodeWord → Except DecodeError Instr
  | .req32 w   => .ok (decodeReq w)
  | .frame24 f => .ok (decodeFrame f)
  | .evt32 w   => (decodeEvt w).map instrOfEvent

/-- The row a request on the port runs as: its word decoded by R61, a TRANSMIT under the row of its frame where the request
says so (log 8). -/
def decodeRequest (r : Request) : Instr :=
  match r.asFrame, decodeReq r.word with
  | true, .transmit cmd code => decodeFrame (cmd ++ code)
  | _, i => i

/-! ## Encoders -/

/-- The EVT32 word of an event (R63). -/
def encodeEvent : Event → Word
  | .csAssert       => eventWord 0x01 0
  | .csDeassert     => eventWord 0x02 0
  | .busEnable      => eventWord 0x03 0
  | .busDisable     => eventWord 0x04 0
  | .pollTxe v      => eventWord 0x05 (bitPayload v)
  | .pollFtlvl n    => eventWord 0x06 n
  | .pollBsy b      => eventWord 0x07 (bitPayload b)
  | .pushByte b     => eventWord 0x08 (b.setWidth 24)
  | .pushHalf b0 b1 => eventWord 0x09 (0x00#8 ++ b0 ++ b1)
  | .send3 f        => eventWord 0x0A f
  | .delay t        => eventWord 0x0B t
  | .result r       => eventWord 0x0C ((resultCode r).setWidth 24)

/-- The REQ32 word of TRANSMIT(cmd, code): `0x01 ++ cmd ++ code` (R60, R65). -/
def transmitWord (cmd : Byte) (code : Code) : Word := 0x01#8 ++ cmd ++ code

/-- `F = c ++ k` (R56). -/
def frameWordOf (cmd : Byte) (code : Code) : FrameWord := cmd ++ code

/-- The word of a well-formed instruction, in its row's format. -/
def encode : Instr → CodeWord
  | .transmit cmd code   => .req32 (transmitWord cmd code)
  | .init                => .req32 0x02000000
  | .illegalRequest w    => .req32 w
  | .wrbufA code         => .frame24 (frameWordOf 0x00 code)
  | .wrbufB code         => .frame24 (frameWordOf 0x04 code)
  | .wrldA code          => .frame24 (frameWordOf 0x10 code)
  | .wrldB code          => .frame24 (frameWordOf 0x24 code)
  | .wrbufBWrldA code    => .frame24 (frameWordOf 0x14 code)
  | .wrldAWrldB code     => .frame24 (frameWordOf 0x34 code)
  | .frameOther cmd code => .frame24 (frameWordOf cmd code)
  | .csAssert            => .evt32 (encodeEvent .csAssert)
  | .csDeassert          => .evt32 (encodeEvent .csDeassert)
  | .busEnable           => .evt32 (encodeEvent .busEnable)
  | .busDisable          => .evt32 (encodeEvent .busDisable)
  | .pollTxe v           => .evt32 (encodeEvent (.pollTxe v))
  | .pollFtlvl n         => .evt32 (encodeEvent (.pollFtlvl n))
  | .pollBsy b           => .evt32 (encodeEvent (.pollBsy b))
  | .pushByte b          => .evt32 (encodeEvent (.pushByte b))
  | .pushHalf b0 b1      => .evt32 (encodeEvent (.pushHalf b0 b1))
  | .send3 f             => .evt32 (encodeEvent (.send3 f))
  | .delay t             => .evt32 (encodeEvent (.delay t))
  | .result r            => .evt32 (encodeEvent (.result r))

/-! ## The opcode table's own reading -/

/-- The instruction of a word as opcode_table.json numbers it. The table gives the word no format: 24 bits are FRAME24;
32 bits are read as a request where they spell TRANSMIT or INIT, else as an event where they spell one, else as an
ILLEGAL request (DESIGN CHOICE, log 10: `0x01000000` and `0x02000000` spell a request and an event alike). The block's own
reading of its request port is `decodeReq`. -/
def decodeTableWord (nbits w : Nat) : Option Instr :=
  if nbits = 24 ∧ w < 2 ^ 24 then some (decodeFrame (BitVec.ofNat 24 w))
  else if nbits = 32 ∧ w < 2 ^ 32 then
    let v := BitVec.ofNat 32 w
    if Word.spellsRequest v then some (decodeReq v)
    else match decodeEvt v with
      | .ok e    => some (instrOfEvent e)
      | .error _ => some (.illegalRequest v)
  else none

end Sys2Proof
end

