-- ==== Sys2Proof/Machine/State.lean ====
section
/-! DEFINITION. State as plain data: the block's tuple (10_state.md R21), the environment's state (42_interface.md R109,
R117), the configuration and the inputs; State.reset; why a step can stop. -/

namespace Sys2Proof.Machine

/-- The 15 states of the state machine (R22). -/
inductive St where
  | idle
  | csOn
  | en
  | txWait
  | push
  | drainFifo
  | drainBsy
  | dis
  | csOff
  | bCsOn
  | bSend
  | bCsOff
  | done
  | iTx
  | iDelay
  deriving DecidableEq, Repr

/-- The frame buffer, three bytes (R23). -/
structure Frame where
  b0 : Byte
  b1 : Byte
  b2 : Byte
  deriving DecidableEq, Repr

/-- The names of the model faults (R120). -/
inductive FaultName where
  | reentrantRequest
  | illegalRequest
  deriving DecidableEq, Repr

/-- The sticky set of model faults (R30), one bit a name. -/
structure FaultSet where
  reentrantRequest : Bool
  illegalRequest   : Bool
  deriving DecidableEq, Repr

/-- The bus controller's own state (R109). -/
structure Bus where
  /-- `Q`: bytes pushed and not yet started. -/
  queue   : List Byte
  /-- `sh`: the bits still to shift of the byte being shifted, none when idle. -/
  shifter : List Bool
  /-- `wire`: the bits shifted out so far, oldest first. -/
  wire    : List Bool
  /-- A blocking send has been issued and has not returned (R82, R104). -/
  sending : Bool
  deriving DecidableEq, Repr

/-- The DAC as an observer of wire and chip-select (R117). -/
structure Dac where
  /-- The bits shifted since chip-select fell; none while it is high. -/
  window   : List Bool
  /-- One entry a chip-select window, oldest first: the frame received, or `none` for a window that is no frame. -/
  received : List (Option FrameWord)
  deriving DecidableEq, Repr

/-- The machine. The fields to `trace` are the block's tuple (R21); `bus` and `dac` the environment's state (R109, R117);
`cfg` the parameters (R9–R15), which no step writes; `env` the next step's inputs (R34) and `draws` the counter of the
free values taken: these last three are the model's own. -/
structure State where
  st       : St
  frame    : Frame
  idx      : Fin 4
  polls    : Nat
  outcome  : Result
  csN      : Bool
  busEn    : Bool
  inInit   : Bool
  faults   : FaultSet
  attempts : Nat
  trace    : List Event
  bus      : Bus
  dac      : Dac
  cfg      : Config
  env      : Env
  draws    : Nat
  deriving DecidableEq, Repr

/-- Why the machine stops with a fault. -/
inductive Fault where
  /-- Raised by PUSH_BYTE when `idx = 3`: the byte `frame[3]` to push does not exist (R39). Safe: no run reaches it
  (R74), and the machine stops. -/
  | frameIndex
  /-- Raised by an interface operation asked of a block that has recorded a fault: it takes no further step (R121).
  Safe: the machine stops. `step` never asks for it. -/
  | stopped
  deriving DecidableEq, Repr

/-- Why the model gives an instruction no meaning. -/
inductive Refusal where
  /-- Raised by an arm of `exec` whose instruction has no meaning yet. Safe: the machine stops. -/
  | notModelled (mnemonic : String)
  /-- Raised by an interface operation asked of the block in a state whose rule does not issue it, or with a payload
  it does not issue (R35, R63). Safe: the machine stops. `step` never asks for it. -/
  | notIssued
  /-- Raised by POLL_FTLVL(n) for an answer n wider than `FTLVL_WIDTH` (R44, R63). Safe: the machine stops. `step`
  never asks for it. -/
  | answerTooWide
  deriving DecidableEq, Repr

/-- No fault recorded (R30). -/
def FaultSet.none : FaultSet := ⟨false, false⟩

/-- The frame buffer's bytes after reset: the spec gives no value (R23); zero (DESIGN CHOICE, log 1). -/
def Frame.reset : Frame := ⟨0, 0, 0⟩

/-- A bus controller that is drained and has shifted nothing (R135 item 4; DESIGN CHOICE, log 3). -/
def Bus.reset : Bus := ⟨[], [], [], false⟩

/-- A DAC that has seen nothing (DESIGN CHOICE, log 3). -/
def Dac.reset : Dac := ⟨[], []⟩

/-- The inputs of the first step after reset: the block's turn, nothing presented (DESIGN CHOICE, log 5). -/
def Env.quiet : Env := ⟨.block, false, 0, false, Option.none, false, 0, [], false⟩

/-- The machine right after reset (R134), under CLEAN_ENTRY (R135) and the standard configuration (R9–R13): `st`,
`inInit`, `faults`, `trace` as the spec states; the others as log 1 to 5 name them. -/
def State.reset : State where
  st       := .idle
  frame    := Frame.reset
  idx      := 0
  polls    := 0
  outcome  := .ok
  csN      := true
  busEn    := false
  inInit   := false
  faults   := FaultSet.none
  attempts := 0
  trace    := []
  bus      := Bus.reset
  dac      := Dac.reset
  cfg      := Config.standard
  env      := Env.quiet
  draws    := 0

end Sys2Proof.Machine
end

