-- ==== Sys2Proof/Machine/Operands.lean ====
section
/-! DEFINITION. Operands: the frame's assembly (30_encoding.md R56), its bytes and its word, the bits of a value as
the wire carries them (20_memory.md R42), the push operands (40_transmit.md R74). -/

namespace Sys2Proof.Machine

/-- `[cmd, code >> 8, code & 0xFF]` (R56). -/
def frameOf (cmd : Byte) (code : Code) : Frame :=
  ⟨cmd, code.extractLsb' 8 8, code.extractLsb' 0 8⟩

/-- `frame[i]`; the buffer has no byte above `frame[2]` (R39). -/
def Frame.byte? (f : Frame) : Nat → Option Byte
  | 0 => some f.b0
  | 1 => some f.b1
  | 2 => some f.b2
  | _ + 3 => none

/-- The bytes of the frame in wire order (R41). -/
def Frame.bytes (f : Frame) : List Byte := [f.b0, f.b1, f.b2]

/-- `F = frame[0] ++ frame[1] ++ frame[2]` (R42). -/
def Frame.word (f : Frame) : FrameWord := f.b0 ++ f.b1 ++ f.b2

/-- The bits of a value in wire order, most significant first (R42: wire bit k of F is `F[23 − k]`). -/
def wireBits {n : Nat} (v : BitVec n) : List Bool := (List.range n).map fun k => v.getMsbD k

/-- The bits of bytes in wire order (R41, R42). -/
def wireBitsOf (bs : List Byte) : List Bool := bs.flatMap fun b => wireBits b

/-- The 24-bit word of bits received most significant first (R117). -/
def wordOfWire (bits : List Bool) : FrameWord :=
  bits.foldl (fun acc b => (acc <<< 1) ||| bitPayload b) 0

/-- The bytes that bits in wire order spell (R42); bits that fill no byte are dropped. -/
def bytesOfWire : List Bool → List Byte
  | b7 :: b6 :: b5 :: b4 :: b3 :: b2 :: b1 :: b0 :: rest =>
    BitVec.ofBoolListBE [b7, b6, b5, b4, b3, b2, b1, b0] :: bytesOfWire rest
  | _ => []

/-- `remaining = 3 − idx` (R24). -/
def State.remaining (s : State) : Nat := 3 - s.idx.val

/-- The next push is a pair (R74: `PUSH_MODE = PACKED and remaining > 1`). -/
def State.pushesPair (s : State) : Bool := decide (s.cfg.pushMode = .packed) && decide (1 < s.remaining)

/-- `idx + k` (R68: it ranges over 0..3). -/
def State.idxPlus (s : State) (k : Nat) : Fin 4 := Fin.ofNat 4 (s.idx.val + k)

/-- The interface operation of PUSH (R74). With `idx = 3` there is no byte to push: `execPushByte` faults whatever byte
stands here. -/
def State.pushOperand (s : State) : Instr :=
  match s.frame.byte? s.idx.val, s.frame.byte? (s.idx.val + 1) with
  | some b0, some b1 => if s.pushesPair then .pushHalf b0 b1 else .pushByte b0
  | some b0, none    => .pushByte b0
  | none, _          => .pushByte 0

/-- The FIFO-level answer the block reads: the low `FTLVL_WIDTH` bits (R15, R44). -/
def State.ftlvlAnswer (s : State) : FrameWord :=
  BitVec.ofNat 24 (s.env.ftlvl.toNat % 2 ^ s.cfg.ftlvlWidth.val)

end Sys2Proof.Machine
end

