-- ==== Sys2Proof/Machine/Flags.lean ====
section
/-! DEFINITION. Flags. The block holds no condition flags (10_state.md R36): here are the tests it makes of the three
status answers (40_transmit.md R73, R75, R76), what it does when one is not ready (R80), INIT's retry test (41_init.md
R91) and the fault set's test. -/

namespace Sys2Proof.Machine

/-- `NotReady(S)` (R80), without the poll itself. -/
def State.notReady (s : State) (wait : St) : State :=
  match s.cfg.waitBound with
  | .unbounded => { s with st := wait }
  | .atMost n  =>
    if s.polls + 1 = n then { s with polls := s.polls + 1, outcome := .timeout, st := .dis }
    else { s with polls := s.polls + 1, st := wait }

/-- TXE answered `v` (R73): ready is `v = 1`. -/
def State.afterTxe (s : State) (v : Bool) : State :=
  if v then { s with st := .push } else s.notReady .txWait

/-- FTLVL answered `n` (R75): ready is `n = 0`. -/
def State.afterFtlvl (s : State) (n : FrameWord) : State :=
  if n = 0 then { s with polls := 0, st := .drainBsy } else s.notReady .drainFifo

/-- BSY answered `b` (R76): ready is `b = 0`. A ready answer leaves `polls` as it is. -/
def State.afterBsy (s : State) (b : Bool) : State :=
  if b then s.notReady .drainBsy else { s with st := .dis }

/-- INIT may make another attempt (R91: `INIT_MAX_ATTEMPTS = UNBOUNDED or attempts < INIT_MAX_ATTEMPTS`). -/
def State.attemptsLeft (s : State) : Bool :=
  match s.cfg.maxAttempts with
  | .unbounded => true
  | .atMost n  => decide (s.attempts < n)

/-- `DONE` retries instead of reporting (R91). -/
def State.retries (s : State) : Bool :=
  s.inInit && decide (s.outcome = .busy) && s.attemptsLeft

/-- `faults ≠ ∅` (R30, R121). -/
def State.faulted (s : State) : Bool := s.faults.reentrantRequest || s.faults.illegalRequest

end Sys2Proof.Machine
end

