-- ==== Sys2Proof/Machine/Ops.lean ====
section
/-! DEFINITION. Ops: the named operations over the state: the trace, the fault, the presentation of a request, the
guard of an interface operation, pin, wire, queue and DAC, the blocking send, reset, the platform's boot, the draw of the
next inputs. -/

namespace Sys2Proof.Machine

/-- A step's outcome (Host/Core.lean). -/
abbrev StepOutcome := Host.Outcome State Fault Refusal

/-! ## Trace and faults -/

/-- `Emit(E)` (R18): append the event to the trace. -/
def State.emit (s : State) (e : Event) : State := { s with trace := s.trace ++ [e] }

/-- Add a name to a fault set (R30). -/
def FaultSet.add (f : FaultSet) : FaultName → FaultSet
  | .reentrantRequest => { f with reentrantRequest := true }
  | .illegalRequest   => { f with illegalRequest := true }

/-- `raise Fault(name)` (R18, R120): the name is recorded and nothing else changes. The block has no trap entry and no
return (R124); only reset removes the name (R121). -/
def State.raiseFault (s : State) (f : FaultName) : State := { s with faults := s.faults.add f }

/-- A request is presented (R123): a faulted block does not take it and nothing changes (R121); outside `IDLE` it is
reentrant whatever it holds; in `IDLE` it is `accepted`. -/
def State.present (s : State) (accepted : State) : StepOutcome :=
  if s.faulted then .next s
  else if s.st = .idle then .next accepted
  else .next (s.raiseFault .reentrantRequest)

/-- The block issues an interface operation: only a block without a recorded fault (R121), and only where a rule issues
it (R35). -/
def State.issue (s : State) (here : Prop) [Decidable here] (after : State) : StepOutcome :=
  if s.faulted then .fault .stopped
  else if here then .next after
  else .refused .notIssued

/-! ## Accepting -/

/-- The state a transmit starts in (R70, R90). -/
def State.firstSt (s : State) : St :=
  match s.cfg.variant with
  | .polled   => .csOn
  | .blocking => .bCsOn

/-- Accept TRANSMIT(cmd, code) (R70). -/
def State.acceptTransmit (s : State) (cmd : Byte) (code : Code) : State :=
  { s with frame := frameOf cmd code, idx := 0, outcome := .ok, st := s.firstSt }

/-- Accept INIT (R89). -/
def State.acceptInit (s : State) : State :=
  { s with frame := ⟨0x00, 0x00, 0x00⟩, inInit := true, attempts := 0, st := .iTx }

/-- `I_TX`, one link-validation attempt (R90). -/
def State.initAttempt (s : State) : State :=
  { s with frame := ⟨0x00, 0x00, 0x00⟩, idx := 0, outcome := .ok, attempts := s.attempts + 1, st := s.firstSt }

/-! ## The bus controller -/

/-- The bits pushed and not yet on the wire, in wire order (R112). -/
def Bus.pending (b : Bus) : List Bool := b.shifter ++ wireBitsOf b.queue

/-- `Q` empty and `sh` idle (R113: drained). -/
def Bus.drained (b : Bus) : Bool := b.queue.isEmpty && b.shifter.isEmpty

/-- The bits a mask keeps; a bit with no mask entry is lost. -/
def keepBits : List Bool → List Bool → List Bool
  | true :: ks, b :: bs  => b :: keepBits ks bs
  | false :: ks, _ :: bs => keepBits ks bs
  | _, _ => []

/-- `Q` and `sh` hold just these bits, in wire order: what fills no whole byte is the byte being shifted, and where the bits
are whole bytes the first is in `sh` already or still in `Q` (R109: `sh` is one byte or idle). -/
def Bus.holdBits (b : Bus) (bits : List Bool) (started : Bool) : Bus :=
  let inShifter := if started ∧ bits.length % 8 = 0 then min 8 bits.length else bits.length % 8
  { b with shifter := bits.take inShifter, queue := bytesOfWire (bits.drop inShifter) }

/-- Outside the bus contract (R114): what is pending may reach the wire in part, "possibly with bits lost", and `Q` may still
hold data. Which bits survive and whether the first byte is started are free values (log 15). -/
def Bus.lose (b : Bus) (keep : List Bool) (started : Bool) : Bus :=
  b.holdBits (keepBits keep b.pending) started

/-- Bits leave the bus controller: onto the wire (R112), and to the DAC while chip-select is low (R117). -/
def State.shiftOut (s : State) (bits : List Bool) : State :=
  { s with
    bus := { s.bus with wire := s.bus.wire ++ bits }
    dac := if s.csN then s.dac else { s.dac with window := s.dac.window ++ bits } }

/-- A shifting step of the bus controller (R112): while `bus_en = 1` it shifts one bit of the byte in `sh`, or takes the
head of `Q` into an idle `sh`; while `bus_en = 0` it shifts nothing. -/
def State.busShift (s : State) : State :=
  if s.busEn then
    match s.bus.shifter, s.bus.queue with
    | bit :: rest, _ => ({ s with bus := { s.bus with shifter := rest } }).shiftOut [bit]
    | [], b :: rest  => { s with bus := { s.bus with queue := rest, shifter := wireBits b } }
    | [], []         => s
  else s

/-- A push (R111): made right after `POLL_TXE(1)` its bytes join the end of `Q`; otherwise it is outside the contract
(R114; U4). -/
def State.pushBytes (s : State) (bs : List Byte) : State :=
  let joined := { s.bus with queue := s.bus.queue ++ bs }
  { s with bus := if s.trace.getLast? = some (.pollTxe true) then joined else joined.lose s.env.keep s.env.started }

/-- `enable()` (R97). -/
def State.enableBus (s : State) : State := { s with busEn := true }

/-- `disable()` (R98); while BSY = 1 it is outside the contract (R114; U5). -/
def State.disableBus (s : State) : State :=
  { s with busEn := false, bus := if s.bus.drained then s.bus else s.bus.lose s.env.keep s.env.started }

/-! ## The chip-select pin and the DAC -/

/-- What the DAC took of a chip-select window that ends now (R117): a frame when exactly 24 bits were shifted and none is
in flight. -/
def State.windowVerdict (s : State) : Option FrameWord :=
  if s.bus.drained ∧ s.dac.window.length = 24 then some (wordOfWire s.dac.window) else none

/-- `set_active()`: the pin goes low (R105); a falling edge opens a window (R117). -/
def State.csLow (s : State) : State :=
  if s.csN then { s with csN := false, dac := { s.dac with window := [] } } else s

/-- `set_inactive()`: the pin goes high (R106); a rising edge closes the window (R117), and while `Q` or `sh` holds data
it is outside the contract (R114; U6). -/
def State.csHigh (s : State) : State :=
  if s.csN then s
  else
    { s with
      csN := true
      bus := if s.bus.drained then s.bus else s.bus.lose s.env.keep s.env.started
      dac := { window := [], received := s.dac.received ++ [s.windowVerdict] } }

/-! ## The blocking send -/

/-- The result the block stores for the primitive's answer (R82, R104). -/
def sendOutcome : SendResult → Result
  | .ok    => .ok
  | .busy  => .busy
  | .error => .error

/-- The call is issued: `SEND3(F)` is emitted once (R104), and the step holds until the primitive returns. -/
def State.issueSend (s : State) : State :=
  if s.bus.sending then s
  else { (s.emit (.send3 s.frame.word)) with bus := { s.bus with sending := true } }

/-- What the primitive does on the wire when it returns `r` (R116): `OK`, all 24 bits of F and a drained bus; `BUSY`,
nothing; `ERROR`, any prefix of F (how long is the environment's: U8). -/
def State.sendTransfer (s : State) (r : SendResult) : State :=
  match r with
  | .ok =>
    ({ s with bus := { s.bus with queue := [], shifter := [] } }).shiftOut (s.bus.pending ++ wireBits s.frame.word)
  | .busy  => s
  | .error => s.shiftOut ((wireBits s.frame.word).take s.env.sent)

/-- The primitive returns `r` (R82): `outcome <- r`, and `bus_en` holds whatever it left there (R28, R116; U10). -/
def State.sendReturn (s : State) (r : SendResult) : State :=
  let t := s.sendTransfer r
  { t with
    outcome := sendOutcome r
    st := .bCsOff
    busEn := s.env.sendBusEn
    bus := { t.bus with sending := false } }

/-! ## Reset, boot, inputs -/

/-- A blocking send that is abandoned by a reset: some prefix of F may have been shifted out, `bus_en` holds whatever value the
primitive left there (R28; U10), and the call is over (DESIGN CHOICE, log 17). -/
def State.abandonSend (s : State) : State :=
  if s.bus.sending then
    let t := s.shiftOut ((wireBits s.frame.word).take s.env.sent)
    { t with
      busEn := s.env.sendBusEn
      bus := { t.bus with sending := false } }
  else s

/-- The reset input (R134), whatever the state: the reset does not drive `cs_n` and `bus_en`; the elements to which the spec gives
no value take those of `State.reset` (log 1). -/
def State.applyReset (s : State) : State :=
  { s.abandonSend with
    st := .idle
    inInit := false
    faults := FaultSet.none
    trace := []
    frame := Frame.reset
    idx := 0
    polls := 0
    outcome := .ok
    attempts := 0 }

/-- No request has been accepted since the launch or the last reset, and none is refused: the block is in `IDLE` without a fault
and has emitted nothing (every accepted request leaves `IDLE` and comes back with a `RESULT`: R79, R91). Only then may the
platform act (R134–R136). -/
def State.beforeFirstRequest (s : State) : Bool :=
  decide (s.st = .idle) && !s.faulted && s.trace.isEmpty

/-- The platform's boot steps 2 to 4 (R136), which establish CLEAN_ENTRY items 2 to 4 (R135). -/
def State.platformBoot (s : State) : State :=
  let t := s.csHigh
  { t with
    busEn := if s.cfg.variant = .polled then false else t.busEn
    bus := { t.bus with queue := [], shifter := [] } }

/-- The environment's inputs for the next step are a fresh free value (R34; log 5). -/
def State.draw (s : State) : State := { s with env := Config.nextEnv s.draws, draws := s.draws + 1 }

end Sys2Proof.Machine
end

