-- ==== Sys2Proof/Machine/BusOps.lean ====
section
/-! DEFINITION. The bus controller's rows: enable and disable (42_interface.md R97, R98), the three polls (R99–R101), the
two pushes (R102, R103) and the blocking send (R104), as the steps of 40_transmit.md R72–R77 and R82 issue them. -/

namespace Sys2Proof.Machine

/-- BUS_ENABLE: `EN` (R72). -/
def execBusEnable (s : State) : StepOutcome :=
  s.issue (s.st = .en)
    { (s.enableBus.emit .busEnable) with polls := 0, st := .txWait }

/-- BUS_DISABLE: `DIS` (R77). -/
def execBusDisable (s : State) : StepOutcome :=
  s.issue (s.st = .dis)
    { (s.disableBus.emit .busDisable) with st := .csOff }

/-- POLL_TXE(v): `TXWAIT` with the answer v (R73, R80). -/
def execPollTxe (v : Bool) (s : State) : StepOutcome :=
  s.issue (s.st = .txWait) ((s.emit (.pollTxe v)).afterTxe v)

/-- POLL_FTLVL(n): `DRAIN_FIFO` with the answer n (R75, R80), which has `FTLVL_WIDTH` bits (R44). -/
def execPollFtlvl (n : FrameWord) (s : State) : StepOutcome :=
  if s.cfg.ftlvlFits n then s.issue (s.st = .drainFifo) ((s.emit (.pollFtlvl n)).afterFtlvl n)
  else .refused .answerTooWide

/-- POLL_BSY(b): `DRAIN_BSY` with the answer b (R76, R80). -/
def execPollBsy (b : Bool) (s : State) : StepOutcome :=
  s.issue (s.st = .drainBsy) ((s.emit (.pollBsy b)).afterBsy b)

/-- What a push of `k` bytes leaves (R74): `idx` advanced, `polls` cleared, and the next state by whether the frame is
whole. -/
def State.afterPush (s : State) (k : Nat) : State :=
  { s with
    idx := s.idxPlus k
    polls := 0
    st := if s.idxPlus k = 3 then .drainFifo else .txWait }

/-- PUSH_BYTE(b): `PUSH` of one byte, `frame[idx]` (R74). With `idx = 3` the byte read does not exist (R39). -/
def execPushByte (b : Byte) (s : State) : StepOutcome :=
  if s.st = .push ∧ s.idx = 3 ∧ ¬ s.faulted then .fault .frameIndex
  else s.issue (s.st = .push ∧ s.pushesPair = false ∧ s.frame.byte? s.idx.val = some b)
    (((s.pushBytes [b]).emit (.pushByte b)).afterPush 1)

/-- PUSH_HALF(b0, b1): `PUSH` of the pair `frame[idx]`, `frame[idx+1]` (R74). -/
def execPushHalf (b0 b1 : Byte) (s : State) : StepOutcome :=
  s.issue (s.st = .push ∧ s.pushesPair = true ∧ s.frame.byte? s.idx.val = some b0 ∧
      s.frame.byte? (s.idx.val + 1) = some b1)
    (((s.pushBytes [b0, b1]).emit (.pushHalf b0 b1)).afterPush 2)

/-- SEND3(F): `B_SEND` (R82). While the primitive has not returned the block holds there (R104). -/
def execSend3 (f : FrameWord) (s : State) : StepOutcome :=
  s.issue (s.st = .bSend ∧ f = s.frame.word)
    (match s.env.send with
     | none   => s.issueSend
     | some r => s.issueSend.sendReturn r)

end Sys2Proof.Machine
end

