-- ==== Sys2Proof/Machine/Frames.lean ====
section
/-! DEFINITION. The FRAME24 rows, as the host writes them: each expands to one TRANSMIT of its command byte and code
(30_encoding.md R57–R59, R65, R66; log 8). The block copies every command byte to `frame[0]` unchanged. -/

namespace Sys2Proof.Machine

/-- WRBUF_A code: `TRANSMIT 0x00, code` (R66). -/
def execWrbufA (code : Code) (s : State) : StepOutcome :=
  s.present (s.acceptTransmit (commandByte .wrbufA) code)

/-- WRBUF_B code: `TRANSMIT 0x04, code` (R66). -/
def execWrbufB (code : Code) (s : State) : StepOutcome :=
  s.present (s.acceptTransmit (commandByte .wrbufB) code)

/-- WRLD_A code: `TRANSMIT 0x10, code` (R66). -/
def execWrldA (code : Code) (s : State) : StepOutcome :=
  s.present (s.acceptTransmit (commandByte .wrldA) code)

/-- WRLD_B code: `TRANSMIT 0x24, code` (R66). -/
def execWrldB (code : Code) (s : State) : StepOutcome :=
  s.present (s.acceptTransmit (commandByte .wrldB) code)

/-- `TRANSMIT WRBUF_B|WRLD_A, code`: command byte 0x14 (R58, R65). -/
def execWrbufBWrldA (code : Code) (s : State) : StepOutcome :=
  s.present (s.acceptTransmit (commandByte .wrbufB ||| commandByte .wrldA) code)

/-- `TRANSMIT WRLD_A|WRLD_B, code`: command byte 0x34 (R58, R65). -/
def execWrldAWrldB (code : Code) (s : State) : StepOutcome :=
  s.present (s.acceptTransmit (commandByte .wrldA ||| commandByte .wrldB) code)

/-- Any other command byte: accepted and sent as it is (R59). -/
def execFrameOther (cmd : Byte) (code : Code) (s : State) : StepOutcome :=
  s.present (s.acceptTransmit cmd code)

end Sys2Proof.Machine
end

