-- ==== Sys2Proof/Machine/HostPort.lean ====
section
/-! DEFINITION. The delay and the result (42_interface.md R107, R108), as the steps of 41_init.md R91, R92 and
40_transmit.md R79 issue them. -/

namespace Sys2Proof.Machine

/-- DELAY(t): `I_DELAY` (R92); no time is modelled (R6). -/
def execDelay (t : FrameWord) (s : State) : StepOutcome :=
  s.issue (s.st = .iDelay ∧ t = s.cfg.retryDelay)
    { (s.emit (.delay t)) with st := .iTx }

/-- RESULT(r): `DONE` where it reports: with `in_init = 0` (R79), and with `in_init = 1` where INIT makes no other
attempt, which also clears `in_init` (R91). -/
def execResult (r : Result) (s : State) : StepOutcome :=
  s.issue (s.st = .done ∧ s.retries = false ∧ r = s.outcome)
    { (s.emit (.result r)) with inInit := false, st := .idle }

end Sys2Proof.Machine
end

