-- ==== Sys2Proof/Machine/Pin.lean ====
section
/-! DEFINITION. The chip-select rows (42_interface.md R105, R106; 40_transmit.md R71, R78, R81, R83). -/

namespace Sys2Proof.Machine

/-- CS_ASSERT: `CS_ON` (R71), and `B_CS_ON` of the BLOCKING variant (R81). -/
def execCsAssert (s : State) : StepOutcome :=
  s.issue (s.st = .csOn ∨ s.st = .bCsOn)
    { (s.csLow.emit .csAssert) with st := if s.st = .csOn then .en else .bSend }

/-- CS_DEASSERT: `CS_OFF` (R78), and `B_CS_OFF` of the BLOCKING variant (R83). -/
def execCsDeassert (s : State) : StepOutcome :=
  s.issue (s.st = .csOff ∨ s.st = .bCsOff)
    { (s.csHigh.emit .csDeassert) with st := .done }

end Sys2Proof.Machine
end

