-- ==== Sys2Proof/Machine/Request.lean ====
section
/-! DEFINITION. The REQ32 rows: what the block does with a request presented to it (30_encoding.md R61–R62,
40_transmit.md R69–R70, 41_init.md R88–R89, 60_exceptions.md R120–R123). -/

namespace Sys2Proof.Machine

/-- TRANSMIT cmd, code (R69): accepted in `IDLE` by R70. -/
def execTransmit (cmd : Byte) (code : Code) (s : State) : StepOutcome :=
  s.present (s.acceptTransmit cmd code)

/-- INIT (R88): accepted in `IDLE` by R89. -/
def execInit (s : State) : StepOutcome :=
  s.present s.acceptInit

/-- A word that spells no request (R62): `Fault(ILLEGAL_REQUEST)` in `IDLE`, whatever the word. -/
def execIllegalRequest (_w : Word) (s : State) : StepOutcome :=
  s.present (s.raiseFault .illegalRequest)

end Sys2Proof.Machine
end

