-- ==== Sys2Proof/Machine/Engine.lean ====
section
/-! DEFINITION. Engine: whose step is next and what it runs (00_scope.md R7, 60_exceptions.md R123): the request presented,
or the interface operation the block's state names (10_state.md R35), or a step with no row of the opcode table. -/

namespace Sys2Proof.Machine

/-- The interface operation the block issues in its state, the answers drawn from the environment; none in `IDLE`, `I_TX`
and a `DONE` that retries. -/
def State.ownOp (s : State) : Option Instr :=
  match s.st with
  | .idle      => none
  | .csOn      => some .csAssert
  | .en        => some .busEnable
  | .txWait    => some (.pollTxe s.env.txe)
  | .push      => some s.pushOperand
  | .drainFifo => some (.pollFtlvl s.ftlvlAnswer)
  | .drainBsy  => some (.pollBsy s.env.bsy)
  | .dis       => some .busDisable
  | .csOff     => some .csDeassert
  | .bCsOn     => some .csAssert
  | .bSend     => some (.send3 s.frame.word)
  | .bCsOff    => some .csDeassert
  | .done      => if s.retries then none else some (.result s.outcome)
  | .iTx       => none
  | .iDelay    => some (.delay s.cfg.retryDelay)

/-- The instruction the next step runs, if it runs one. -/
def State.fetch (s : State) : Option Instr :=
  match s.env.move with
  | .request r => some (decodeRequest r)
  | .block     => if s.faulted then none else s.ownOp
  | .shift | .reset | .configure => none

/-- A step of the block with no row of the opcode table: `I_TX` (R90), a `DONE` that retries (R91), and the hold of `IDLE`,
in which the block does nothing (R19). -/
def State.silentStep (s : State) : State :=
  match s.st with
  | .iTx  => s.initAttempt
  | .done => if s.retries then { s with st := .iDelay } else s
  | _     => s

/-- What a step that runs no instruction does: reset (R134), a shifting step of the bus controller (R112), the platform's
boot, which it may do only before the first request and after a reset (R134–R136; log 19), nothing for a faulted block (R121),
else the block's silent step. A blocking send in progress when the fault was recorded is not cancelled (R123): its return is not
taken and it puts no bit on the wire until a reset abandons it (DESIGN CHOICE, log 32). -/
def State.noFetch (s : State) : State :=
  match s.env.move with
  | .reset     => s.applyReset
  | .shift     => s.busShift
  | .configure => if s.beforeFirstRequest then s.platformBoot else s
  | .request _ => s
  | .block     => if s.faulted then s else s.silentStep

/-- The machine placed where its next step runs `i`: a request on the port, or the block in the state that issues the
operation, with the answer or operand it carries (log 11). -/
def State.withInstr (s : State) (i : Instr) : State :=
  let own := fun (t : State) => { t with env := { t.env with move := .block }, faults := FaultSet.none }
  let asks := fun (w : Word) (asFrame : Bool) => { s with env := { s.env with move := .request ⟨w, asFrame⟩ } }
  match i with
  | .transmit cmd code   => asks (transmitWord cmd code) false
  | .init                => asks 0x02000000 false
  | .illegalRequest w    => asks w false
  | .wrbufA code         => asks (transmitWord 0x00 code) true
  | .wrbufB code         => asks (transmitWord 0x04 code) true
  | .wrldA code          => asks (transmitWord 0x10 code) true
  | .wrldB code          => asks (transmitWord 0x24 code) true
  | .wrbufBWrldA code    => asks (transmitWord 0x14 code) true
  | .wrldAWrldB code     => asks (transmitWord 0x34 code) true
  | .frameOther cmd code => asks (transmitWord cmd code) true
  | .csAssert            => own { s with st := .csOn }
  | .csDeassert          => own { s with st := .csOff }
  | .busEnable           => own { s with st := .en }
  | .busDisable          => own { s with st := .dis }
  | .pollTxe v           => own { s with st := .txWait, env := { s.env with txe := v } }
  | .pollFtlvl n         => own { s with st := .drainFifo, env := { s.env with ftlvl := n } }
  | .pollBsy b           => own { s with st := .drainBsy, env := { s.env with bsy := b } }
  | .pushByte b          => own { s with st := .push, idx := 2, frame := { s.frame with b2 := b } }
  | .pushHalf b0 b1      =>
    own { s with
      st := .push, idx := 0, frame := { s.frame with b0 := b0, b1 := b1 }
      cfg := { s.cfg with pushMode := .packed } }
  | .send3 f             =>
    own { s with
      st := .bSend
      frame := ⟨f.extractLsb' 16 8, f.extractLsb' 8 8, f.extractLsb' 0 8⟩ }
  | .delay t             => own { s with st := .iDelay, cfg := { s.cfg with retryDelay := t } }
  | .result r            => own { s with st := .done, inInit := false, outcome := r }

end Sys2Proof.Machine
end

