-- ==== Sys2Proof/Machine/Dispatch.lean ====
section
/-! DEFINITION. Dispatch: one arm per constructor of Instr, each one direct call of its meaning. -/

namespace Sys2Proof.Machine

def exec (i : Instr) (s : State) : Host.Outcome State Fault Refusal :=
  match i with
  -- REQ32
  | .transmit cmd code => Sys2Proof.Machine.execTransmit cmd code s
  | .init => Sys2Proof.Machine.execInit s
  | .illegalRequest w => Sys2Proof.Machine.execIllegalRequest w s
  -- FRAME24
  | .wrbufA code => Sys2Proof.Machine.execWrbufA code s
  | .wrbufB code => Sys2Proof.Machine.execWrbufB code s
  | .wrldA code => Sys2Proof.Machine.execWrldA code s
  | .wrldB code => Sys2Proof.Machine.execWrldB code s
  | .wrbufBWrldA code => Sys2Proof.Machine.execWrbufBWrldA code s
  | .wrldAWrldB code => Sys2Proof.Machine.execWrldAWrldB code s
  | .frameOther cmd code => Sys2Proof.Machine.execFrameOther cmd code s
  -- EVT32
  | .csAssert => Sys2Proof.Machine.execCsAssert s
  | .csDeassert => Sys2Proof.Machine.execCsDeassert s
  | .busEnable => Sys2Proof.Machine.execBusEnable s
  | .busDisable => Sys2Proof.Machine.execBusDisable s
  | .pollTxe v => Sys2Proof.Machine.execPollTxe v s
  | .pollFtlvl n => Sys2Proof.Machine.execPollFtlvl n s
  | .pollBsy b => Sys2Proof.Machine.execPollBsy b s
  | .pushByte b => Sys2Proof.Machine.execPushByte b s
  | .pushHalf b0 b1 => Sys2Proof.Machine.execPushHalf b0 b1 s
  | .send3 f => Sys2Proof.Machine.execSend3 f s
  | .delay t => Sys2Proof.Machine.execDelay t s
  | .result r => Sys2Proof.Machine.execResult r s

end Sys2Proof.Machine
end

