-- ==== Sys2Proof/Machine/Step.lean ====
section
/-! DEFINITION. Step: one agent's step, then the next inputs are drawn; and where an opcode-table word is placed to run
next. -/

namespace Sys2Proof.Machine

/-- The outcome with the next state's inputs drawn (log 5). -/
def drawNext : Host.Outcome State Fault Refusal → Host.Outcome State Fault Refusal
  | .next s    => .next s.draw
  | .fault r   => .fault r
  | .refused r => .refused r

/-- One step (R6, R19, R123): the instruction fetched, if there is one, else the step that runs none. A hold, and the
quiescence of a faulted block, is a step in which only the environment moves (log 6). -/
def step (s : State) : Host.Outcome State Fault Refusal :=
  match s.fetch with
  | some i => drawNext (exec i s)
  | none   => .next s.noFetch.draw

/-- The state whose next step runs the table's word (log 10, log 11); unchanged where the word has no reading. -/
def State.withFetchWord (s : State) (nbits w : Nat) : State :=
  match decodeTableWord nbits w with
  | some i => s.withInstr i
  | none   => s

end Sys2Proof.Machine
end

