-- ==== Sys2Proof/Machine/Assembler.lean ====
section
/-! DEFINITION. Assembler: the request syntax of 30_encoding.md R65 and the pseudo-instructions of R66. One request a line;
`;` starts a comment; a value that does not fit its field is refused, never truncated. -/

namespace Sys2Proof.Machine

/-! ## From the operands as written to the REQ32 word -/

/-- A command operand's value: a number, a name of R57, or an OR of them (R65). -/
def commandValue : CommandText → Nat
  | .number n => n
  | .name c   => (commandByte c).toNat
  | .or a b   => commandValue a ||| commandValue b

/-- `TRANSMIT <cmd>, <code>` (R65): refused where a value does not fit its field. -/
def assembleTransmit (cmd code : Nat) : Option Word :=
  if cmd < 256 ∧ code < 65536 then some (transmitWord (BitVec.ofNat 8 cmd) (BitVec.ofNat 16 code)) else none

/-- The REQ32 word of a request line (R65, R66); a pseudo-instruction expands to one TRANSMIT. -/
def assemble : RequestText → Option Word
  | .transmit cmd code => assembleTransmit (commandValue cmd) code
  | .init              => some 0x02000000
  | .pseudo c code     => assembleTransmit (commandByte c).toNat code

/-! ## From the characters of a line to its operands -/

/-- A decimal digit's value. -/
def decDigit (c : Char) : Option Nat :=
  if '0'.toNat ≤ c.toNat ∧ c.toNat ≤ '9'.toNat then some (c.toNat - '0'.toNat) else none

/-- A hexadecimal digit's value, either case (log 30). -/
def hexDigit (c : Char) : Option Nat :=
  if 'a'.toNat ≤ c.toNat ∧ c.toNat ≤ 'f'.toNat then some (c.toNat - 'a'.toNat + 10)
  else if 'A'.toNat ≤ c.toNat ∧ c.toNat ≤ 'F'.toNat then some (c.toNat - 'A'.toNat + 10)
  else decDigit c

/-- The value of a digit string in a base, first digit first. -/
def digits (base : Nat) (digit : Char → Option Nat) : List Char → Nat → Option Nat
  | [], acc      => some acc
  | c :: cs, acc => (digit c).bind fun d => digits base digit cs (acc * base + d)

/-- A number: decimal, or hexadecimal with `0x` (R65). -/
def parseNumber : List Char → Option Nat
  | '0' :: 'x' :: c :: cs => digits 16 hexDigit (c :: cs) 0
  | c :: cs => digits 10 decDigit (c :: cs) 0
  | [] => none

/-- The part of a line before the first character `d`, and the part after it, if it is there. -/
def cutAt (d : Char) : List Char → List Char × Option (List Char)
  | [] => ([], none)
  | c :: cs => if c = d then ([], some cs) else ((c :: (cutAt d cs).1), (cutAt d cs).2)

/-- A line without the blanks at its ends. -/
def trimBlanks (cs : List Char) : List Char :=
  ((cs.dropWhile (· = ' ')).reverse.dropWhile (· = ' ')).reverse

/-- A command name (R57). -/
def parseName (cs : List Char) : Option CommandName :=
  if cs = "WRBUF_A".toList then some .wrbufA
  else if cs = "WRBUF_B".toList then some .wrbufB
  else if cs = "WRLD_A".toList then some .wrldA
  else if cs = "WRLD_B".toList then some .wrldB
  else none

/-- One part of a command operand. -/
def parseCommandPart (cs : List Char) : Option CommandText :=
  match parseName cs with
  | some c => some (.name c)
  | none   => (parseNumber cs).map .number

/-- A command operand (R65), its parts ORed; `fuel` bounds the parts. -/
def parseCommand : Nat → List Char → Option CommandText
  | 0, _ => none
  | fuel + 1, cs =>
    match cutAt '|' cs with
    | (part, none)      => parseCommandPart (trimBlanks part)
    | (part, some rest) =>
      match parseCommandPart (trimBlanks part), parseCommand fuel rest with
      | some a, some b => some (.or a b)
      | _, _ => none

/-- A request line (R65, R66): `none` where it spells no request. -/
def parseLine (line : List Char) : Option RequestText :=
  let body := trimBlanks (cutAt ';' line).1
  match cutAt ' ' body with
  | (op, none) => if op = "INIT".toList then some .init else none
  | (op, some rest) =>
    if op = "TRANSMIT".toList then
      match cutAt ',' rest with
      | (cmd, some code) =>
        match parseCommand (cmd.length + 1) cmd, parseNumber (trimBlanks code) with
        | some c, some k => some (.transmit c k)
        | _, _ => none
      | (_, none) => none
    else
      match parseName op, parseNumber (trimBlanks rest) with
      | some c, some k => some (.pseudo c k)
      | _, _ => none

/-- The REQ32 word of a request line as written. -/
def assembleLine (line : String) : Option Word := (parseLine line.toList).bind assemble

end Sys2Proof.Machine
end

