-- ==== Sys2Proof/Safety.lean ====
section
/-! DEFINITION. Safety: what counts as a good state, a good run and a good trace, in the terms the claims use: CLEAN_ENTRY
(70_reset_and_hazards.md R135), the bus contract as a premise (42_interface.md R109–R117), the invariants of the state
machine, the shapes of a trace (40_transmit.md R84) and the end of a run (70_reset_and_hazards.md R146). -/

namespace Sys2Proof.Machine

/-! ## Launch and end -/

/-- CLEAN_ENTRY items 1 to 4 (R135), which are about one state. Item 5, that no agent but the block drives the pin or the bus
controller, is about the steps that follow: `HostRun` and `transmitRun` have no step of the platform, and in such a state the
platform's step would change nothing (O60). -/
def State.cleanEntry (s : State) : Prop :=
  s.st = .idle ∧ s.faulted = false ∧ s.csN = true ∧
  (s.cfg.variant = .polled → s.busEn = false) ∧
  s.bus.drained = true ∧ s.bus.sending = false

/-- One step from `s` to `t`, whatever inputs the environment draws for `t` (R34). -/
def State.goes (s t : State) : Prop := ∃ u, step s = .next u ∧ t = { u with env := t.env }

/-- A host program: the requests in order (R146). -/
abbrev HostProgram := List Request

/-- The results a trace reports. -/
def resultsOf (trace : List Event) : List Result :=
  trace.filterMap fun e => match e with
    | .result r => some r
    | _ => none

/-- The results reported between `s₀` and a later state `s` of a run without reset (the trace is append-only: R33). -/
def State.resultsSince (s s₀ : State) : List Result := resultsOf (s.trace.drop s₀.trace.length)

/-- `HostRun s₀ p s`: from the CLEAN_ENTRY state `s₀` (R135) the host has presented the requests `p`, in order and each after the
RESULT of the one before it (R146), and the machine stands in `s`. Between them only the block and its bus controller move:
there is no reset, and nobody else drives the pin or the bus (R135 item 5). -/
inductive HostRun (s₀ : State) : HostProgram → State → Prop
  | launch (h : s₀.cleanEntry) : HostRun s₀ [] s₀
  | request {p : HostProgram} {s t : State} {r : Request} (h : HostRun s₀ p s) (hm : s.env.move = .request r)
      (hr : (s.resultsSince s₀).length = p.length) (hs : s.goes t) : HostRun s₀ (p ++ [r]) t
  | run {p : HostProgram} {s t : State} (h : HostRun s₀ p s) (hm : s.env.move = .block ∨ s.env.move = .shift)
      (hs : s.goes t) : HostRun s₀ p t

/-- The run of `p` from `s₀` has ended in `s` (R146): all of `p` was presented, the last request's RESULT is emitted, the block is
in `IDLE` and no fault is recorded. -/
def State.ended (s₀ : State) (p : HostProgram) (s : State) : Prop :=
  HostRun s₀ p s ∧ (s.resultsSince s₀).length = p.length ∧ s.st = .idle ∧ s.faulted = false

/-- `s` and `t` agree on the whole tuple R21. -/
def State.sameTuple (s t : State) : Prop :=
  t.st = s.st ∧ t.frame = s.frame ∧ t.idx = s.idx ∧ t.polls = s.polls ∧ t.outcome = s.outcome ∧ t.csN = s.csN ∧
  t.busEn = s.busEn ∧ t.inInit = s.inInit ∧ t.faults = s.faults ∧ t.attempts = s.attempts ∧ t.trace = s.trace

/-! ## The environment's contract, a premise of claims (log 31) -/

/-- The drain law at this step (R113): the FIFO-level answer is 0 exactly when `Q` is empty, and the BSY answer is 0 exactly
when `Q` is empty and `sh` idle. -/
def State.drainLaw (s : State) : Prop :=
  (s.ftlvlAnswer = 0 ↔ s.bus.queue = []) ∧ (s.env.bsy = false ↔ s.bus.drained = true)

/-- It is the block's turn, and it is in the state `w`. -/
def State.turnIn (s : State) (w : St) : Prop := s.env.move = .block ∧ s.faulted = false ∧ s.st = w

/-- The poll or the send that the block's step makes, if it makes one, is answered ready, or has returned (R115). -/
def State.answeredReady (s : State) : Prop :=
  match s.st with
  | .txWait    => s.env.txe = true
  | .drainFifo => s.ftlvlAnswer = 0
  | .drainBsy  => s.env.bsy = false
  | .bSend     => s.env.send ≠ none
  | .idle | .csOn | .en | .push | .dis | .csOff | .bCsOn | .bCsOff | .done | .iTx | .iDelay => True

/-- From step `n` on the run comes to a state that `holds`, unless a reset or a fault stops the block first. -/
def eventually (run : Nat → State) (n : Nat) (holds : State → Prop) : Prop :=
  ∃ m, n ≤ m ∧ (holds (run m) ∨ (run m).env.move = .reset ∨ (run m).faulted = true)

/-- A responsive bus along a run (R115): while `bus_en = 1` every queued byte is eventually shifted; a block that polls TXE, FTLVL
or BSY eventually polls it with the answer 1, 0 or 0; a blocking send eventually returns; and a primitive that returns again and
again does not answer `BUSY` for ever. A premise of claims about termination, never a property of the step. -/
def responsiveBus (run : Nat → State) : Prop :=
  (∀ n, (run n).busEn = true →
    ∃ m, n ≤ m ∧ ((run n).bus.wire ++ (run n).bus.pending <+: (run m).bus.wire ∨ (run m).busEn = false)) ∧
  (∀ n w, (run n).turnIn w → eventually run n (fun t => t.turnIn w ∧ t.answeredReady)) ∧
  (∀ n, (∀ m, n ≤ m → ∃ k, m ≤ k ∧ (run k).turnIn .bSend ∧ (run k).env.send ≠ none) →
    ∃ k, n ≤ k ∧ (run k).turnIn .bSend ∧ ∃ r, (run k).env.send = some r ∧ r ≠ .busy)

/-- An infinite run of the block and its bus controller alone, in which the block moves again and again: no request is presented,
there is no reset, and nobody else drives the pin or the bus. -/
def transmitRun (run : Nat → State) : Prop :=
  (∀ n, (run n).goes (run (n + 1))) ∧ (∀ n, (run n).env.move = .block ∨ (run n).env.move = .shift) ∧
  (∀ n, ∃ m, n ≤ m ∧ (run m).env.move = .block)

/-! ## Invariants of the state machine -/

/-- The states of the POLLED steps (R22). -/
def St.isPolled : St → Bool
  | .csOn | .en | .txWait | .push | .drainFifo | .drainBsy | .dis | .csOff => true
  | .idle | .bCsOn | .bSend | .bCsOff | .done | .iTx | .iDelay => false

/-- The states of the BLOCKING steps (R22). -/
def St.isBlocking : St → Bool
  | .bCsOn | .bSend | .bCsOff => true
  | .idle | .csOn | .en | .txWait | .push | .drainFifo | .drainBsy | .dis | .csOff | .done | .iTx | .iDelay => false

/-- The wait states (R80). -/
def St.isWait : St → Bool
  | .txWait | .drainFifo | .drainBsy => true
  | .idle | .csOn | .en | .push | .dis | .csOff | .bCsOn | .bSend | .bCsOff | .done | .iTx | .iDelay => false

/-- The states from the build of a frame to its last poll, in which no poll has timed out and no send returned. -/
def St.beforeEnd : St → Bool
  | .csOn | .en | .txWait | .push | .drainFifo | .drainBsy | .bCsOn | .bSend => true
  | .idle | .dis | .csOff | .bCsOff | .done | .iTx | .iDelay => false

/-- The states in which chip-select is low (R71, R78, R81, R83). -/
def St.selected : St → Bool
  | .en | .txWait | .push | .drainFifo | .drainBsy | .dis | .csOff | .bSend | .bCsOff => true
  | .idle | .csOn | .bCsOn | .done | .iTx | .iDelay => false

/-- The states in which a POLLED block has the transmitter enabled (R72, R77). -/
def St.enabled : St → Bool
  | .txWait | .push | .drainFifo | .drainBsy | .dis => true
  | .idle | .csOn | .en | .csOff | .bCsOn | .bSend | .bCsOff | .done | .iTx | .iDelay => false

/-- The index fits the state: none pushed before `TXWAIT`, a byte left in `TXWAIT` and `PUSH` (R73), an even index when
pairs are pushed (R46), all pushed in the drain (R74). -/
def State.idxInv (s : State) : Prop :=
  ((s.st = .csOn ∨ s.st = .en ∨ s.st = .bCsOn ∨ s.st = .bSend ∨ s.st = .bCsOff) → s.idx = 0) ∧
  ((s.st = .txWait ∨ s.st = .push) → s.idx ≠ 3 ∧ (s.cfg.pushMode = .packed → s.idx ≠ 1)) ∧
  ((s.st = .drainFifo ∨ s.st = .drainBsy) → s.idx = 3)

/-- The result register fits the state (R26): `OK` until a poll times out or a send returns; in POLLED never `BUSY` or
`ERROR` at the end (R93, R122), and only `OK` with unbounded waits (R122); in BLOCKING never `TIMEOUT` (R122); `BUSY` between INIT's attempts (R91). -/
def State.outcomeInv (s : State) : Prop :=
  (s.st.beforeEnd = true → s.outcome = .ok) ∧
  ((s.st = .dis ∨ s.st = .csOff) → s.outcome = .ok ∨ s.outcome = .timeout) ∧
  ((s.st = .dis ∨ s.st = .csOff ∨ s.st = .done) → s.cfg.variant = .polled → s.cfg.waitBound = .unbounded →
    s.outcome = .ok) ∧
  (s.st = .bCsOff → s.outcome ≠ .timeout) ∧
  (s.st = .done → s.cfg.variant = .polled → s.outcome = .ok ∨ s.outcome = .timeout) ∧
  (s.st = .done → s.cfg.variant = .blocking → s.outcome ≠ .timeout) ∧
  (s.st = .iDelay → s.outcome = .busy ∧ s.cfg.variant = .blocking)

/-- INIT's flag, counter and frame fit the state (R29, R31, R89, R90, R94). -/
def State.initInv (s : State) : Prop :=
  (s.st = .idle → s.inInit = false) ∧
  ((s.st = .iTx ∨ s.st = .iDelay) → s.inInit = true) ∧
  (s.inInit = true → s.frame = ⟨0x00, 0x00, 0x00⟩ ∧ (s.st ≠ .iTx → 1 ≤ s.attempts))

/-- The control invariant: the configuration is legal, the state is one of the variant's (R22, R70), index, result and INIT
fit the state, a push follows `POLL_TXE(1)` at once (R74), a bounded wait has polls left (R80), a send is in progress
only in `B_SEND` (R82), and the shifter holds at most one byte (R109). -/
def State.ctlInv (s : State) : Prop :=
  s.cfg.legal = true ∧
  (s.st.isPolled = true → s.cfg.variant = .polled) ∧
  (s.st.isBlocking = true → s.cfg.variant = .blocking) ∧
  s.idxInv ∧ s.outcomeInv ∧ s.initInv ∧
  (s.st = .push → s.trace.getLast? = some (.pollTxe true)) ∧
  (∀ n, s.cfg.waitBound = .atMost n → s.st.isWait = true → s.polls < n) ∧
  (s.bus.sending = true → s.st = .bSend) ∧
  s.bus.shifter.length ≤ 8

/-- The pin and the enable bit fit the state (R85 items 5 and 8). -/
def State.pinInv (s : State) : Prop :=
  s.csN = !s.st.selected ∧ (s.cfg.variant = .polled → s.busEn = s.st.enabled)

/-- The bits of the frame's first `idx` bytes, in wire order. -/
def State.pushedBits (s : State) : List Bool := wireBitsOf (s.frame.bytes.take s.idx.val)

/-- The wire carries the frame (R85, R87): outside a window the bus is drained; in one, what the DAC saw followed by what is
pending is exactly what was pushed; when the frame is whole and drained the DAC saw its 24 bits; at the end of an `OK`
transmit the last frame the DAC received is F. -/
def State.wireInv (s : State) : Prop :=
  ((s.st = .idle ∨ s.st = .csOn ∨ s.st = .bCsOn ∨ s.st = .done ∨ s.st = .iTx ∨ s.st = .iDelay) →
    s.bus.drained = true) ∧
  ((s.st = .en ∨ s.st = .bSend) → s.bus.drained = true ∧ s.dac.window = []) ∧
  ((s.st = .txWait ∨ s.st = .push ∨ s.st = .drainFifo ∨ s.st = .drainBsy) →
    s.dac.window ++ s.bus.pending = s.pushedBits) ∧
  ((s.st = .dis ∨ s.st = .csOff) → s.bus.drained = true ∧ s.dac.window = wireBitsOf s.frame.bytes) ∧
  (s.st = .bCsOff → s.bus.drained = true ∧ (s.outcome = .ok → s.dac.window = wireBitsOf s.frame.bytes)) ∧
  (s.st = .done → s.outcome = .ok → s.dac.received.getLast? = some (some s.frame.word))

/-! ## The shapes of a trace -/

/-- What a reader of the trace alone knows of the transmit in progress. -/
inductive Shape where
  /-- Between transmits. -/
  | start
  /-- `CS_ASSERT` seen. -/
  | selected
  /-- Polling TXE: the bytes pushed so far, and the not-ready answers of this wait. -/
  | wait (pushed : List Byte) (notReady : Nat)
  /-- `POLL_TXE(1)` just seen. -/
  | ready (pushed : List Byte)
  /-- Polling FTLVL, then BSY: the three bytes, and the not-ready answers of this wait. -/
  | fifo (pushed : List Byte) (notReady : Nat)
  | busy (pushed : List Byte) (notReady : Nat)
  /-- The drain is over, or a wait ran out. -/
  | drained (pushed : List Byte)
  | timedOut
  /-- `BUS_DISABLE` seen. -/
  | disabled (timeout : Bool)
  /-- `SEND3(F)` seen (BLOCKING): its frame word. -/
  | sent (frame : FrameWord)
  /-- `CS_DEASSERT` seen. -/
  | released (timeout : Bool)
  /-- `CS_DEASSERT` seen after `SEND3` (BLOCKING). -/
  | releasedSend
  deriving DecidableEq, Repr

/-- A not-ready answer in a wait (R80, R84): one more is counted under a bound, and the n-th ends the wait. -/
def Shape.notReady (c : Config) (k : Nat) (again : Nat → Shape) : Shape :=
  match c.waitBound with
  | .unbounded => again k
  | .atMost n  => if k + 1 = n then .timedOut else again (k + 1)

/-- After a push of `bs` (R74): the drain when three bytes are out, else the next wait. -/
def Shape.afterPush (bs : List Byte) : Shape := if bs.length = 3 then .fifo bs 0 else .wait bs 0

/-- The event that may come next, and what is known after it (R84): `none` where the event is out of order. -/
def Shape.next (c : Config) : Shape → Event → Option Shape
  | .start, .csAssert => some .selected
  | .selected, .busEnable => if c.variant = .polled then some (.wait [] 0) else none
  | .selected, .send3 f => if c.variant = .blocking then some (.sent f) else none
  | .wait bs k, .pollTxe v => some (if v then .ready bs else Shape.notReady c k (Shape.wait bs))
  | .ready bs, .pushHalf b0 b1 =>
    if c.pushMode = .packed ∧ bs.length ≤ 1 then some (Shape.afterPush (bs ++ [b0, b1])) else none
  | .ready bs, .pushByte b =>
    if c.pushMode = .bytewise ∨ bs.length = 2 then some (Shape.afterPush (bs ++ [b])) else none
  | .fifo bs k, .pollFtlvl n => some (if n = 0 then .busy bs 0 else Shape.notReady c k (Shape.fifo bs))
  | .busy bs k, .pollBsy b => some (if b then Shape.notReady c k (Shape.busy bs) else .drained bs)
  | .drained _, .busDisable => some (.disabled false)
  | .timedOut, .busDisable => some (.disabled true)
  | .disabled t, .csDeassert => some (.released t)
  | .sent _, .csDeassert => some .releasedSend
  | .released t, .result r => if r = (if t then .timeout else .ok) then some .start else none
  | .releasedSend, .result r => if r = .timeout then none else some .start
  | .releasedSend, .delay t => if t = c.retryDelay then some .start else none
  | _, _ => none

/-- Read a trace from the start: `none` when some event is out of order. -/
def readTrace (c : Config) (trace : List Event) : Option Shape :=
  trace.foldlM (fun sh e => Shape.next c sh e) Shape.start

/-- Where the block's state says the trace must stand. Under unbounded waits not-ready answers are not counted. -/
def State.shape (s : State) : Shape :=
  let bs := s.frame.bytes.take s.idx.val
  let k := match s.cfg.waitBound with
    | .unbounded => 0
    | .atMost _  => s.polls
  match s.st with
  | .idle | .csOn | .bCsOn | .iTx => .start
  | .en        => .selected
  | .txWait    => .wait bs k
  | .push      => .ready bs
  | .drainFifo => .fifo bs k
  | .drainBsy  => .busy bs k
  | .dis       => if s.outcome = .timeout then .timedOut else .drained s.frame.bytes
  | .csOff     => .disabled (decide (s.outcome = .timeout))
  | .bSend     => if s.bus.sending then .sent s.frame.word else .selected
  | .bCsOff    => .sent s.frame.word
  | .done      => if s.cfg.variant = .polled then .released (decide (s.outcome = .timeout)) else .releasedSend
  | .iDelay    => .releasedSend

/-- The trace is of R84's shapes, and stands where the block's state says. -/
def State.traceInv (s : State) : Prop := readTrace s.cfg s.trace = some s.shape

/-! ## Transmits end -/

/-- How many block steps a POLLED transmit with `WAIT_BOUND = n` has left at most, by state (R80). -/
def State.stepsLeft (n : Nat) (s : State) : Nat :=
  let left := n - s.polls
  let wait := fun (r : Nat) => 6 + 2 * n + (r - 1) * (n + 2)
  match s.st with
  | .csOn      => 8 + 2 * n + 3 * (n + 2)
  | .en        => 7 + 2 * n + 3 * (n + 2)
  | .txWait    => wait s.remaining + 1 + left
  | .push      => wait s.remaining
  | .drainFifo => 5 + n + left
  | .drainBsy  => 4 + left
  | .dis       => 3
  | .csOff     => 2
  | .done      => 1
  | .idle | .bCsOn | .bSend | .bCsOff | .iTx | .iDelay => 0

/-- How many ready block steps a transmit has left before `DONE`, by state (R70–R83). -/
def State.readyLeft (s : State) : Nat :=
  match s.st with
  | .csOn      => 12
  | .en        => 11
  | .txWait    => 4 + 2 * s.remaining
  | .push      => 3 + 2 * s.remaining
  | .drainFifo => 4
  | .drainBsy  => 3
  | .dis       => 2
  | .csOff     => 1
  | .bCsOn     => 3
  | .bSend     => 2
  | .bCsOff    => 1
  | .idle | .done | .iTx | .iDelay => 0

end Sys2Proof.Machine
end

