-- ==== Sys2Proof/Certificates/Slice0/Obligations.lean ====
section
/-! DEFINITION. Obligations: the statements for the provers, each with the rules of spec/ it formalises. -/

open Sys2Proof Sys2Proof.Machine

/-! ## Encodings -/

/-- O1 (30_encoding.md R55, 30_encoding.md R57, 30_encoding.md R60, 30_encoding.md R61, 30_encoding.md R63,
opcode_table.json; derived). For every configuration and every instruction of all 22 rows that is well formed, with
every operand at every value its encoding admits: decode of encode of it is it. No bit of an encoding is dropped. -/
def Obligations.DecodeOfEncode : Prop :=
  ∀ (c : Config) (i : Instr), i.wf c = true → decode (encode i) = .ok i

/-- O2 (30_encoding.md R55, 30_encoding.md R61, 30_encoding.md R63, opcode_table.json; derived). For every word of the
three formats: if it decodes to an instruction then encoding that instruction gives the word back, and the
instruction is well formed under any configuration that reads 24-bit FIFO levels. So no two words of one format
decode to one instruction, and a catch-all row never takes a word of a row above it. -/
def Obligations.EncodeOfDecode : Prop :=
  ∀ (w : CodeWord) (i : Instr), decode w = .ok i →
    encode i = w ∧ ∀ c : Config, c.ftlvlWidth = 24 → i.wf c = true

/-- O3 (R61; stated). A REQ32 word written as its op byte before its 24 low bits: op 0x01 with cmd and code decodes to
TRANSMIT of exactly these, whatever they are; op 0x02 with 24 zero bits decodes to INIT, with any other 24 bits to
the ILLEGAL word; any other op to the ILLEGAL word. These are all 2^32 words. The mask and match of the three rows
in opcode_table.json (TRANSMIT 0xFF000000 and 0x01000000, INIT 0xFFFFFFFF and 0x02000000, ILLEGAL the rest) say the
same. -/
def Obligations.RequestDecodingIsTotal : Prop :=
  (∀ (cmd : Byte) (code : Code), decodeReq (0x01#8 ++ cmd ++ code) = .transmit cmd code) ∧
  (∀ p : FrameWord,
    decodeReq (0x02#8 ++ p) = if p = 0 then .init else .illegalRequest (0x02#8 ++ p)) ∧
  (∀ (op : Byte) (p : FrameWord), op ≠ 0x01 → op ≠ 0x02 → decodeReq (op ++ p) = .illegalRequest (op ++ p)) ∧
  (∀ w : Word, (∃ cmd code, decodeReq w = .transmit cmd code) ↔ w &&& 0xFF000000#32 = 0x01000000#32) ∧
  (∀ w : Word, decodeReq w = .init ↔ w &&& 0xFFFFFFFF#32 = 0x02000000#32)

/-- O4 (30_encoding.md R57, 30_encoding.md R58, 30_encoding.md R59; derived). For every code k: the frame word c ++ k
decodes to WRBUF_A, WRBUF_B, WRLD_A, WRLD_B, WRBUF_B|WRLD_A, WRLD_A|WRLD_B with code k for c = 0x00, 0x04, 0x10,
0x24, 0x04 OR 0x10, 0x10 OR 0x24, and to FRAME_OTHER with c and k for every other c. -/
def Obligations.FrameWordsByCommandByte : Prop :=
  (∀ k : Code,
    decodeFrame (0x00#8 ++ k) = .wrbufA k ∧ decodeFrame (0x04#8 ++ k) = .wrbufB k ∧
    decodeFrame (0x10#8 ++ k) = .wrldA k ∧ decodeFrame (0x24#8 ++ k) = .wrldB k ∧
    decodeFrame ((0x04#8 ||| 0x10#8) ++ k) = .wrbufBWrldA k ∧
    decodeFrame ((0x10#8 ||| 0x24#8) ++ k) = .wrldAWrldB k) ∧
  (∀ (c : Byte) (k : Code), c ∉ [0x00#8, 0x04#8, 0x10#8, 0x14#8, 0x24#8, 0x34#8] →
    decodeFrame (c ++ k) = .frameOther c k)

/-- O5 (30_encoding.md R61, 30_encoding.md R63, 95_test_vectors.md L2.2, 95_test_vectors.md L2.3; derived). One word of
each format and family, from the spec's own tables: the TRANSMIT of the source's example, INIT, two ILLEGAL words,
the WRLD_B frame of full scale, and the words of a poll, a pair push, a send, a delay and a result. -/
def Obligations.WordsWrittenOut : Prop :=
  decode (.req32 0x01101234) = .ok (.transmit 0x10 0x1234) ∧
  decode (.req32 0x02000000) = .ok .init ∧
  decode (.req32 0x02800000) = .ok (.illegalRequest 0x02800000) ∧
  decode (.req32 0x81101234) = .ok (.illegalRequest 0x81101234) ∧
  decode (.frame24 0x24FFFF) = .ok (.wrldB 0xFFFF) ∧
  decode (.evt32 0x05000001) = .ok (.pollTxe true) ∧
  decode (.evt32 0x09001012) = .ok (.pushHalf 0x10 0x12) ∧
  decode (.evt32 0x0A101234) = .ok (.send3 0x101234) ∧
  decode (.evt32 0x0B00000A) = .ok (.delay 10) ∧
  decode (.evt32 0x0C000003) = .ok (.result .timeout)

/-- O6 (30_encoding.md R63; derived). For every payload: a word whose kind is 0x00 or above 0x0C is rejected by its
kind; a word of kind 0x01 to 0x04 with a payload that is not 0, of kind 0x05 or 0x07 with a payload above 1, 0x08
above 0xFF, 0x09 above 0xFFFF, 0x0C above 3 is rejected by its payload. That a nonzero unnamed payload bit is
rejected is DEDUCED from R63 (log 23). -/
def Obligations.WordsThatAreNoEvent : Prop :=
  (∀ (k : Byte) (p : FrameWord), k = 0x00 ∨ 0x0C < k.toNat → decode (.evt32 (k ++ p)) = .error (.noSuchKind k)) ∧
  (∀ (k : Byte) (p : FrameWord),
    (k ∈ [0x01#8, 0x02#8, 0x03#8, 0x04#8] ∧ p ≠ 0) ∨ (k ∈ [0x05#8, 0x07#8] ∧ 1 < p.toNat) ∨
    (k = 0x08 ∧ 0xFF < p.toNat) ∨ (k = 0x09 ∧ 0xFFFF < p.toNat) ∨ (k = 0x0C ∧ 3 < p.toNat) →
    decode (.evt32 (k ++ p)) = .error (.payloadNotZero k))

/-- O7 (R40, R56; stated). For every command byte c and code k: frame[0] is c, frame[1] is k >> 8, which is k[15:8],
frame[2] is k & 0xFF, which is k[7:0], no value above 0xFF arises, and the frame word is c ++ k with F[23:16] = c
and F[15:0] = k. The corner cases k = 0x0000 and k = 0xFFFF and the source's example are said besides. No mode
enters: the function takes only c and k. -/
def Obligations.FrameAssembly : Prop :=
  (∀ (c : Byte) (k : Code),
    (frameOf c k).b0 = c ∧
    (frameOf c k).b1.toNat = (k >>> 8).toNat ∧ (frameOf c k).b1 = k.extractLsb' 8 8 ∧
    (frameOf c k).b2.toNat = (k &&& 0xFF).toNat ∧ (frameOf c k).b2 = k.extractLsb' 0 8 ∧
    (k >>> 8).toNat ≤ 0xFF ∧ (k &&& 0xFF).toNat ≤ 0xFF ∧
    (frameOf c k).word = c ++ k ∧
    (frameOf c k).word.extractLsb' 16 8 = c ∧ (frameOf c k).word.extractLsb' 0 16 = k) ∧
  (∀ c : Byte, frameOf c 0x0000 = ⟨c, 0x00, 0x00⟩ ∧ frameOf c 0xFFFF = ⟨c, 0xFF, 0xFF⟩) ∧
  frameOf 0x10 0x1234 = ⟨0x10, 0x12, 0x34⟩

/-- O8 (R42; stated). For every frame: its bytes shifted out in order, each most significant bit first, are the 24 bits
of F, bit k being F[23 - k]; and reading the 24 bits back gives F. -/
def Obligations.WireBitOrder : Prop :=
  ∀ f : Frame,
    wireBitsOf [f.b0, f.b1, f.b2] = wireBits f.word ∧ (wireBits f.word).length = 24 ∧
    (∀ k : Nat, k ≤ 23 → (wireBits f.word)[k]? = some (f.word.getLsbD (23 - k))) ∧
    f.word = f.b0 ++ f.b1 ++ f.b2 ∧ wordOfWire (wireBits f.word) = f.word

/-- O9 (30_encoding.md R65, 30_encoding.md R66; derived). TRANSMIT with a numeric command n and code k assembles to the
word 0x01 ++ n ++ k when n < 256 and k < 65536, which decodes to that TRANSMIT, and is refused otherwise; the four
pseudo-instructions assemble as the TRANSMIT of their command byte; INIT assembles to 0x02000000; an OR of names is
the OR of their bytes. -/
def Obligations.AssemblerNeverTruncates : Prop :=
  (∀ n k : Nat, n < 256 → k < 65536 →
    assemble (.transmit (.number n) k) = some (transmitWord (BitVec.ofNat 8 n) (BitVec.ofNat 16 k)) ∧
    decodeReq (transmitWord (BitVec.ofNat 8 n) (BitVec.ofNat 16 k)) =
      .transmit (BitVec.ofNat 8 n) (BitVec.ofNat 16 k)) ∧
  (∀ n k : Nat, 256 ≤ n ∨ 65536 ≤ k → assemble (.transmit (.number n) k) = none) ∧
  (∀ (c : CommandName) (k : Nat), assemble (.pseudo c k) = assemble (.transmit (.number (commandByte c).toNat) k)) ∧
  assemble .init = some 0x02000000 ∧
  (∀ (c d : CommandName) (k : Nat), assemble (.transmit (.or (.name c) (.name d)) k) =
    assemble (.transmit (.number (commandByte c ||| commandByte d).toNat) k))

/-! ## Requests -/

/-- O10 (R70; stated). For every state in IDLE with no fault, every command byte c and code k: TRANSMIT(c, k) answers
the state with frame = [c, k[15:8], k[7:0]], idx 0, outcome OK, st CS_ON (POLLED) or B_CS_ON (BLOCKING), and nothing
else changed: no event, no interface operation. And in every state of the control invariant that is IDLE, in_init is
0. -/
def Obligations.TransmitIsAccepted : Prop :=
  (∀ (s : State) (c : Byte) (k : Code), s.st = .idle → s.faulted = false →
    exec (.transmit c k) s = .next { s with
      frame := ⟨c, k.extractLsb' 8 8, k.extractLsb' 0 8⟩
      idx := 0
      outcome := .ok
      st := if s.cfg.variant = .polled then .csOn else .bCsOn }) ∧
  (∀ s : State, s.ctlInv → s.st = .idle → s.inInit = false)

/-- O11 (30_encoding.md R57, 30_encoding.md R58, 30_encoding.md R59, 30_encoding.md R66, 40_transmit.md R70; derived).
For every state in IDLE with no fault and every code k: WRBUF_A, WRBUF_B, WRLD_A, WRLD_B, WRBUF_B|WRLD_A,
WRLD_A|WRLD_B and FRAME_OTHER(c) answer the state R70 gives for command byte 0x00, 0x04, 0x10, 0x24, 0x14, 0x34 and
c. That a frame is presented as a request is the model's choice (log 8). -/
def Obligations.FrameRequestsAreAccepted : Prop :=
  ∀ (s : State) (k : Code) (c : Byte), s.st = .idle → s.faulted = false →
    ∀ p ∈ [(Instr.wrbufA k, 0x00#8), (Instr.wrbufB k, 0x04#8), (Instr.wrldA k, 0x10#8), (Instr.wrldB k, 0x24#8),
        (Instr.wrbufBWrldA k, 0x14#8), (Instr.wrldAWrldB k, 0x34#8), (Instr.frameOther c k, c)],
      exec p.1 s = .next { s with
        frame := ⟨p.2, k.extractLsb' 8 8, k.extractLsb' 0 8⟩
        idx := 0
        outcome := .ok
        st := if s.cfg.variant = .polled then .csOn else .bCsOn }

/-- O12 (30_encoding.md R59, 30_encoding.md R66, 30_encoding.md R67; derived). For every state and every frame word c ++
k, of every row of FRAME24: running what it decodes to is running what the REQ32 word 0x01 ++ c ++ k decodes to,
accepted, reentrant or ignored alike. And a request runs as its one REQ32 word does, whether or not the model runs
it under the row of its frame. That a FRAME24 word is run at all is the model's choice: a TRANSMIT request may run
under the row of its frame (log 8). -/
def Obligations.FrameRequestsExpandToTransmit : Prop :=
  (∀ (s : State) (c : Byte) (k : Code),
    exec (decodeFrame (c ++ k)) s = exec (decodeReq (0x01#8 ++ c ++ k)) s) ∧
  (∀ (s : State) (r : Request), exec (decodeRequest r) s = exec (decodeReq r.word) s)

/-- O13 (R89; stated). For every state in IDLE with no fault: INIT answers the state with frame = [0, 0, 0], in_init 1,
attempts 0, st I_TX, and nothing else changed. -/
def Obligations.InitIsAccepted : Prop :=
  ∀ s : State, s.st = .idle → s.faulted = false →
    exec .init s = .next { s with frame := ⟨0x00, 0x00, 0x00⟩, inInit := true, attempts := 0, st := .iTx }

/-- O14 (R62; stated). For every word whose op is not 0x01 or 0x02, or whose op is 0x02 with any of bits 23:0 set: it
decodes to ILLEGAL, and in a state with no fault running it answers the same state with ILLEGAL_REQUEST recorded if
IDLE, with REENTRANT_REQUEST recorded if not; no event, frame, pin or bus changes. -/
def Obligations.IllegalWordsFault : Prop :=
  ∀ (op : Byte) (p : FrameWord) (s : State), (op ≠ 0x01 ∧ op ≠ 0x02) ∨ (op = 0x02 ∧ p ≠ 0) → s.faulted = false →
    decodeReq (op ++ p) = .illegalRequest (op ++ p) ∧
    (s.st = .idle → exec (decodeReq (op ++ p)) s =
      .next { s with faults := { s.faults with illegalRequest := true } }) ∧
    (s.st ≠ .idle → exec (decodeReq (op ++ p)) s =
      .next { s with faults := { s.faults with reentrantRequest := true } })

/-- O15 (R120; stated). For every state with no fault recorded: presenting any request whatever outside IDLE answers the
same state with REENTRANT_REQUEST added; presenting a word in IDLE that decodes to ILLEGAL answers the same state
with ILLEGAL_REQUEST added. Frame, trace, pin and bus are unchanged. The step that presents the request does this
and draws the next inputs. -/
def Obligations.TheTwoFaults : Prop :=
  ∀ (s : State) (r : Request), s.faulted = false → s.env.move = .request r →
    (s.st ≠ .idle → step s = .next { s with faults := { s.faults with reentrantRequest := true } }.draw) ∧
    (∀ w, s.st = .idle → decodeReq r.word = .illegalRequest w →
      step s = .next { s with faults := { s.faults with illegalRequest := true } }.draw)

/-- O16 (R121; stated). For every state with a fault recorded: every step other than a reset answers a next state in
which all eleven elements of the tuple, cs_n and bus_en among them, hold their values, and a request presented is
not accepted; a reset empties the fault set; and a faulted state is never the end of a run. -/
def Obligations.FaultedBlockIsQuiescent : Prop :=
  ∀ s : State, s.faulted = true →
    (s.env.move ≠ .reset → ∃ t, step s = .next t ∧ s.sameTuple t) ∧
    (∀ r, exec (decodeRequest r) s = .next s) ∧
    (s.env.move = .reset → ∃ t, step s = .next t ∧ t.faults = ⟨false, false⟩) ∧
    (∀ s₀ p, ¬ State.ended s₀ p s)

/-- O17 (R30; stated). For every step that is not a reset: a recorded name stays recorded, and a set that grew was grown
by a request presented, by one name. After a reset, and in the reset state, the set is empty. -/
def Obligations.FaultsAreSticky : Prop :=
  (∀ s t : State, step s = .next t → s.env.move ≠ .reset →
    (s.faults.reentrantRequest = true → t.faults.reentrantRequest = true) ∧
    (s.faults.illegalRequest = true → t.faults.illegalRequest = true) ∧
    (t.faults ≠ s.faults → (∃ r, s.env.move = .request r) ∧
      (t.faults = { s.faults with reentrantRequest := true } ∨ t.faults = { s.faults with illegalRequest := true }))) ∧
  (∀ s t : State, step s = .next t → s.env.move = .reset → t.faults = ⟨false, false⟩) ∧
  State.reset.faults = ⟨false, false⟩

/-- O18 (70_reset_and_hazards.md R137; derived). For two IDLE states with no fault that differ only in frame, idx,
outcome, polls and attempts: TRANSMIT answers states that differ only in polls and attempts, which it does not
write. -/
def Obligations.TransmitForgetsTheEarlierRun : Prop :=
  ∀ (s : State) (f : Frame) (i : Fin 4) (r : Result) (p a : Nat) (c : Byte) (k : Code),
    s.st = .idle → s.faulted = false →
    ∃ t, exec (.transmit c k) s = .next t ∧
      exec (.transmit c k) { s with frame := f, idx := i, outcome := r, polls := p, attempts := a } =
        .next { t with polls := p, attempts := a }

/-! ## The interface operations -/

/-- O19 (40_transmit.md R71, 40_transmit.md R81, 42_interface.md R105, 42_interface.md R117; derived). For every state
with no fault in CS_ON (B_CS_ON): CS_ASSERT answers a state with cs_n 0, CS_ASSERT appended to the trace and st EN
(B_SEND); a falling pin opens the DAC's window; nothing else changes. What the DAC's window does rests on R117, and
that a pin already low is no edge is the model's inference (log 26). -/
def Obligations.ChipSelectAssert : Prop :=
  ∀ s : State, s.faulted = false →
    (s.st = .csOn → exec .csAssert s = .next { s with
      csN := false
      dac := if s.csN then { s.dac with window := [] } else s.dac
      trace := s.trace ++ [.csAssert]
      st := .en }) ∧
    (s.st = .bCsOn → exec .csAssert s = .next { s with
      csN := false
      dac := if s.csN then { s.dac with window := [] } else s.dac
      trace := s.trace ++ [.csAssert]
      st := .bSend })

/-- O20 (R72; stated). For every state with no fault in EN: BUS_ENABLE answers a state with bus_en 1, polls 0,
BUS_ENABLE appended to the trace and st TXWAIT, nothing else changed; and the block's own next operation there is a
TXE poll. -/
def Obligations.BusEnable : Prop :=
  ∀ s : State, s.faulted = false → s.st = .en →
    ∃ t, exec .busEnable s = .next t ∧
      t = { s with busEn := true, polls := 0, trace := s.trace ++ [.busEnable], st := .txWait } ∧
      t.ownOp = some (.pollTxe t.env.txe)

/-- O21 (R73, R75, R76; stated). For every state with no fault, whatever polls holds: in TXWAIT POLL_TXE(1) goes to
PUSH; in DRAIN_FIFO POLL_FTLVL(0) clears polls and goes to DRAIN_BSY; in DRAIN_BSY POLL_BSY(0) goes to DIS and
leaves polls; each appends its event and changes nothing else. A not-ready answer in TXWAIT, DRAIN_FIFO or DRAIN_BSY
does NotReady of that state after its event. From a state that meets the control invariant a step comes to TXWAIT
only with 3 - idx at least 1. Once in DRAIN_BSY, no step but a reset goes back to DRAIN_FIFO: FTLVL is not polled
again. -/
def Obligations.ReadyAnswers : Prop :=
  (∀ s : State, s.faulted = false →
    (s.st = .txWait → exec (.pollTxe true) s = .next { s with trace := s.trace ++ [.pollTxe true], st := .push }) ∧
    (s.st = .txWait → exec (.pollTxe false) s =
      .next (State.notReady { s with trace := s.trace ++ [.pollTxe false] } .txWait)) ∧
    (s.st = .drainFifo → exec (.pollFtlvl 0) s =
      .next { s with trace := s.trace ++ [.pollFtlvl 0], polls := 0, st := .drainBsy }) ∧
    (∀ n, s.st = .drainFifo → n ≠ 0 → s.cfg.ftlvlFits n = true → exec (.pollFtlvl n) s =
      .next (State.notReady { s with trace := s.trace ++ [.pollFtlvl n] } .drainFifo)) ∧
    (s.st = .drainBsy → exec (.pollBsy false) s = .next { s with trace := s.trace ++ [.pollBsy false], st := .dis }) ∧
    (s.st = .drainBsy → exec (.pollBsy true) s =
      .next (State.notReady { s with trace := s.trace ++ [.pollBsy true] } .drainBsy))) ∧
  (∀ s t : State, s.ctlInv → step s = .next t → t.st = .txWait → 1 ≤ 3 - t.idx.val) ∧
  (∀ s t : State, step s = .next t → s.st = .drainBsy → t.st ≠ .drainFifo)

/-- O22 (R80; stated). For every state with no fault in a wait and its not-ready answer (TXE = 0, FTLVL nonzero, BSY =
1): unbounded, the state stays and only the event is appended; with WAIT_BOUND = n, polls is incremented, and when
it reaches n the outcome is TIMEOUT and st is DIS, else the state stays. From there DIS goes to CS_OFF, CS_OFF to
DONE, and DONE reports TIMEOUT, with no push or poll between; a ready answer never times out, whatever polls holds. -/
def Obligations.NotReadyAnswers : Prop :=
  (∀ (s : State) (e : Instr) (ev : Event), s.faulted = false →
    ((s.st = .txWait ∧ e = .pollTxe false ∧ ev = .pollTxe false) ∨
     (s.st = .drainFifo ∧ ∃ n, n ≠ 0 ∧ s.cfg.ftlvlFits n = true ∧ e = .pollFtlvl n ∧ ev = .pollFtlvl n) ∨
     (s.st = .drainBsy ∧ e = .pollBsy true ∧ ev = .pollBsy true)) →
    (s.cfg.waitBound = .unbounded → exec e s = .next { s with trace := s.trace ++ [ev] }) ∧
    (∀ n, s.cfg.waitBound = .atMost n → exec e s =
      if s.polls + 1 = n then
        .next { s with trace := s.trace ++ [ev], polls := s.polls + 1, outcome := .timeout, st := .dis }
      else .next { s with trace := s.trace ++ [ev], polls := s.polls + 1 })) ∧
  (∀ (s : State) (e : Instr), s.faulted = false →
    ((s.st = .txWait ∧ e = .pollTxe true) ∨ (s.st = .drainFifo ∧ e = .pollFtlvl 0) ∨
     (s.st = .drainBsy ∧ e = .pollBsy false)) →
    ∃ t, exec e s = .next t ∧ t.outcome = s.outcome) ∧
  (∀ s : State, s.faulted = false → s.outcome = .timeout →
    (s.st = .dis → ∃ t, exec .busDisable s = .next t ∧ t.st = .csOff ∧ t.outcome = .timeout ∧
      t.trace = s.trace ++ [.busDisable]) ∧
    (s.st = .csOff → ∃ t, exec .csDeassert s = .next t ∧ t.st = .done ∧ t.outcome = .timeout ∧
      t.trace = s.trace ++ [.csDeassert]) ∧
    (s.st = .done → ∃ t, exec (.result .timeout) s = .next t ∧ t.st = .idle ∧
      t.trace = s.trace ++ [.result .timeout]))

/-- O23 (40_transmit.md R74, 42_interface.md R103, 42_interface.md R111; derived). For every state with no fault in
PUSH, PUSH_MODE = PACKED, 3 - idx > 1, entered on POLL_TXE(1): PUSH_HALF(frame[idx], frame[idx+1]) is the block's
own operation, and answers a state with these two bytes at the end of Q in this order, the event appended, idx
advanced by 2, polls 0, st DRAIN_FIFO if idx is then 3, else TXWAIT, and nothing else changed. -/
def Obligations.PushPair : Prop :=
  ∀ (s : State) (x y : Byte), s.faulted = false → s.st = .push → s.cfg.pushMode = .packed → 1 < 3 - s.idx.val →
    [s.frame.b0, s.frame.b1, s.frame.b2][s.idx.val]? = some x →
    [s.frame.b0, s.frame.b1, s.frame.b2][s.idx.val + 1]? = some y →
    s.trace.getLast? = some (.pollTxe true) →
    s.ownOp = some (.pushHalf x y) ∧
    ∃ j : Fin 4, j.val = s.idx.val + 2 ∧
      exec (.pushHalf x y) s = .next { s with
        bus := { s.bus with queue := s.bus.queue ++ [x, y] }
        trace := s.trace ++ [.pushHalf x y]
        idx := j
        polls := 0
        st := if j = 3 then .drainFifo else .txWait }

/-- O24 (40_transmit.md R74, 42_interface.md R102, 42_interface.md R111; derived). For every state with no fault in PUSH
with a byte left, PUSH_MODE = BYTEWISE or 3 - idx = 1, entered on POLL_TXE(1): PUSH_BYTE(frame[idx]) is the block's
own operation, and answers a state with that byte at the end of Q, the event appended, idx advanced by 1, polls 0,
st DRAIN_FIFO if idx is then 3, else TXWAIT, and nothing else changed. -/
def Obligations.PushSingleByte : Prop :=
  ∀ (s : State) (x : Byte), s.faulted = false → s.st = .push →
    (s.cfg.pushMode = .bytewise ∨ 3 - s.idx.val = 1) →
    [s.frame.b0, s.frame.b1, s.frame.b2][s.idx.val]? = some x →
    s.trace.getLast? = some (.pollTxe true) →
    s.ownOp = some (.pushByte x) ∧
    ∃ j : Fin 4, j.val = s.idx.val + 1 ∧
      exec (.pushByte x) s = .next { s with
        bus := { s.bus with queue := s.bus.queue ++ [x] }
        trace := s.trace ++ [.pushByte x]
        idx := j
        polls := 0
        st := if j = 3 then .drainFifo else .txWait }

/-- O25 (20_memory.md R39, 40_transmit.md R74; derived). For every state with no fault in PUSH with idx = 3 and every
byte: PUSH_BYTE stops with the fault frameIndex. The fault is the model's (log 13); the control invariant excludes
such a state. -/
def Obligations.PushPastTheFrameFaults : Prop :=
  (∀ (s : State) (x : Byte), s.faulted = false → s.st = .push → s.idx = 3 →
    exec (.pushByte x) s = .fault .frameIndex) ∧
  (∀ s : State, s.ctlInv → ¬ (s.st = .push ∧ s.idx = 3))

/-- O26 (40_transmit.md R77, 40_transmit.md R80, 42_interface.md R98, 42_interface.md R114; derived). For every state
with no fault in DIS: BUS_DISABLE answers a state with bus_en 0, BUS_DISABLE appended to the trace and st CS_OFF; a
bus that is drained is left as it is; nothing but these and what a busy bus loses changes. And a step that enters
DIS is a POLL_BSY(0) in DRAIN_BSY, or a not-ready poll that leaves the outcome TIMEOUT in a wait state. What a busy
bus may lose is the model's reading of R114 (log 15). -/
def Obligations.BusDisable : Prop :=
  (∀ s : State, s.faulted = false → s.st = .dis →
    ∃ b, exec .busDisable s = .next { s with
        busEn := false, bus := b, trace := s.trace ++ [.busDisable], st := .csOff } ∧
      b.wire = s.bus.wire ∧ b.sending = s.bus.sending ∧ (s.bus.drained = true → b = s.bus)) ∧
  (∀ s t : State, step s = .next t → t.st = .dis → s.st ≠ .dis →
    (s.st = .drainBsy ∧ t.trace = s.trace ++ [.pollBsy false]) ∨ (s.st.isWait = true ∧ t.outcome = .timeout))

/-- O27 (40_transmit.md R78, 40_transmit.md R83, 42_interface.md R106, 42_interface.md R114, 42_interface.md R117;
derived). For every state with no fault in CS_OFF or B_CS_OFF, whatever outcome holds: CS_DEASSERT answers a state
with cs_n 1, CS_DEASSERT appended to the trace and st DONE; of the rest only the DAC's record, and what a bus in
flight loses, change. That a pin already high is no edge for the DAC is the model's inference (log 26), and what a
bus in flight may lose is its reading of R114 (log 15). -/
def Obligations.ChipSelectDeassert : Prop :=
  ∀ s : State, s.faulted = false → s.st = .csOff ∨ s.st = .bCsOff →
    ∃ b d, exec .csDeassert s = .next { s with
        csN := true, bus := b, dac := d, trace := s.trace ++ [.csDeassert], st := .done } ∧
      b.wire = s.bus.wire ∧ b.sending = s.bus.sending ∧ (s.bus.drained = true → b = s.bus) ∧
      (s.csN = true → d = s.dac)

/-- O28 (40_transmit.md R82, 42_interface.md R104, 10_state.md R28; derived). For every state with no fault in B_SEND, F
its frame word: SEND3(F) is the block's own operation. When the primitive has returned r, it answers a state with
outcome r and st B_CS_OFF; while it has not, a state still in B_SEND with outcome as it was. The event SEND3(F) is
appended once, when the call is issued, and not again while it is held. The block neither polls nor enables nor
disables: bus_en is what the primitive leaves, or as it was. That the hold is a step to a next state is the model's
choice (log 6), and so are the field that marks an issued send, the event being emitted at its issue (R104), and the
transfer in the returning step (log 16). -/
def Obligations.BlockingSendReturns : Prop :=
  ∀ s : State, s.faulted = false → s.st = .bSend →
    s.ownOp = some (.send3 (s.frame.b0 ++ s.frame.b1 ++ s.frame.b2)) ∧
    (∀ r, s.env.send = some r → ∃ t, exec (.send3 (s.frame.b0 ++ s.frame.b1 ++ s.frame.b2)) s = .next t ∧
      t = { s with
        outcome := match r with
          | .ok => .ok
          | .busy => .busy
          | .error => .error
        st := .bCsOff, busEn := s.env.sendBusEn, bus := t.bus, dac := t.dac, trace := t.trace } ∧
      t.bus.sending = false ∧
      t.trace = if s.bus.sending then s.trace else s.trace ++ [.send3 (s.frame.b0 ++ s.frame.b1 ++ s.frame.b2)]) ∧
    (s.env.send = none → exec (.send3 (s.frame.b0 ++ s.frame.b1 ++ s.frame.b2)) s = .next { s with
      bus := { s.bus with sending := true }
      trace := if s.bus.sending then s.trace
        else s.trace ++ [.send3 (s.frame.b0 ++ s.frame.b1 ++ s.frame.b2)] })

/-- O29 (42_interface.md R116, 42_interface.md R104, 10_state.md R28; derived). For every state with no fault in B_SEND
whose primitive returns r: on OK what was pending and then the 24 bits of F are on the wire, in order, MSB first,
and the bus is drained; on BUSY the wire, queue and shifter are as they were; on ERROR a prefix of F is on the wire;
bus_en is whatever value the primitive left; cs_n is unchanged. That the transfer happens in the returning step,
that what was pending goes first, and that BUSY and ERROR leave queue and shifter as they were is the model's choice
(log 16). -/
def Obligations.BlockingSendOnTheWire : Prop :=
  ∀ (s t : State) (r : SendResult), s.faulted = false → s.st = .bSend → s.env.send = some r →
    exec (.send3 s.frame.word) s = .next t →
    t.csN = s.csN ∧ t.busEn = s.env.sendBusEn ∧
    (r = .ok → t.bus.wire = s.bus.wire ++ s.bus.pending ++ wireBits (s.frame.b0 ++ s.frame.b1 ++ s.frame.b2) ∧
      t.bus.queue = [] ∧ t.bus.shifter = []) ∧
    (r = .busy → t.bus.wire = s.bus.wire ∧ t.bus.queue = s.bus.queue ∧ t.bus.shifter = s.bus.shifter) ∧
    (r = .error → ∃ n, t.bus.wire = s.bus.wire ++ (wireBits (s.frame.b0 ++ s.frame.b1 ++ s.frame.b2)).take n ∧
      t.bus.queue = s.bus.queue ∧ t.bus.shifter = s.bus.shifter)

/-- O30 (R92; stated). For every state with no fault in I_DELAY: DELAY(INIT_RETRY_DELAY) is the block's own operation
and answers the state with that event appended and st I_TX, nothing else changed, before every retry alike; the
default delay is 10. -/
def Obligations.DelayBetweenAttempts : Prop :=
  (∀ s : State, s.faulted = false → s.st = .iDelay →
    s.ownOp = some (.delay s.cfg.retryDelay) ∧
    exec (.delay s.cfg.retryDelay) s = .next { s with trace := s.trace ++ [.delay s.cfg.retryDelay], st := .iTx }) ∧
  State.reset.cfg.retryDelay = 10

/-- O31 (40_transmit.md R79, 41_init.md R91, 42_interface.md R108, 60_exceptions.md R129, 70_reset_and_hazards.md R142,
70_reset_and_hazards.md R146; derived). For every state with no fault in DONE with in_init = 0: RESULT(outcome) is
the block's own operation and answers the state with that event appended and st IDLE, nothing else changed. And for
every run of a host program from a CLEAN_ENTRY state, whatever the environment answers: no REENTRANT_REQUEST is
recorded; while no fault is recorded there is one result for each request presented, but for the one in progress
when the block is not in IDLE; and in IDLE without a fault the run of the requests presented has ended (R146). -/
def Obligations.ResultToTheHost : Prop :=
  (∀ s : State, s.faulted = false → s.st = .done → s.inInit = false →
    s.ownOp = some (.result s.outcome) ∧
    exec (.result s.outcome) s = .next { s with trace := s.trace ++ [.result s.outcome], st := .idle }) ∧
  (∀ (s₀ s : State) (p : HostProgram), HostRun s₀ p s →
    s.faults.reentrantRequest = false ∧
    (s.faulted = false → (s.resultsSince s₀).length + (if s.st = .idle then 0 else 1) = p.length) ∧
    (s.faulted = false → s.st = .idle → State.ended s₀ p s))

/-- O32 (R91; stated). For every state with no fault in DONE with in_init = 1: if the outcome is BUSY and
INIT_MAX_ATTEMPTS is unbounded or above attempts, the block's step goes to I_DELAY with no event and changes nothing
else; otherwise RESULT(outcome) answers the state with that event appended, in_init 0 and st IDLE. -/
def Obligations.InitRetriesOrReports : Prop :=
  ∀ s : State, s.faulted = false → s.st = .done → s.inInit = true →
    ((s.outcome = .busy ∧ (s.cfg.maxAttempts = .unbounded ∨ ∃ n, s.cfg.maxAttempts = .atMost n ∧ s.attempts < n)) →
      s.env.move = .block → step s = .next { s with st := .iDelay }.draw) ∧
    (¬ (s.outcome = .busy ∧ (s.cfg.maxAttempts = .unbounded ∨ ∃ n, s.cfg.maxAttempts = .atMost n ∧ s.attempts < n)) →
      s.ownOp = some (.result s.outcome) ∧
      exec (.result s.outcome) s =
        .next { s with trace := s.trace ++ [.result s.outcome], inInit := false, st := .idle })

/-- O33 (R90; stated). For every state with no fault in I_TX at the block's turn: the step answers the state with frame
= [0, 0, 0], idx 0, outcome OK, attempts one more and st CS_ON (POLLED) or B_CS_ON (BLOCKING), nothing else changed
but the next inputs drawn; from there the transmit steps are those of a host TRANSMIT, since they are steps of the
same states. -/
def Obligations.InitAttemptStep : Prop :=
  ∀ s : State, s.faulted = false → s.st = .iTx → s.env.move = .block →
    step s = .next { s with
      frame := ⟨0x00, 0x00, 0x00⟩
      idx := 0
      outcome := .ok
      attempts := s.attempts + 1
      st := if s.cfg.variant = Variant.polled then .csOn else .bCsOn }.draw

/-! ## Frames -/

/-- O34 (40_transmit.md R69, 40_transmit.md R70, 41_init.md R89, 60_exceptions.md R120; derived). Whenever TRANSMIT or a
row of FRAME24 (WRBUF_A, WRBUF_B, WRLD_A, WRLD_B, WRBUF_B|WRLD_A, WRLD_A|WRLD_B, FRAME_OTHER) gives a next state,
only frame, idx, outcome, st and faults may differ; INIT: only frame, in_init, attempts, st and faults;
ILLEGAL_REQUEST: only faults. Every other field of the machine is as it was; the machine has no memory. -/
def Obligations.RequestFrames : Prop :=
  ∀ s t : State,
    (∀ i, ((∃ c k, i = .transmit c k) ∨ (∃ k, i = .wrbufA k) ∨ (∃ k, i = .wrbufB k) ∨ (∃ k, i = .wrldA k) ∨
        (∃ k, i = .wrldB k) ∨ (∃ k, i = .wrbufBWrldA k) ∨ (∃ k, i = .wrldAWrldB k) ∨ (∃ c k, i = .frameOther c k)) →
      exec i s = .next t →
      t = { s with frame := t.frame, idx := t.idx, outcome := t.outcome, st := t.st, faults := t.faults }) ∧
    (exec .init s = .next t →
      t = { s with frame := t.frame, inInit := t.inInit, attempts := t.attempts, st := t.st, faults := t.faults }) ∧
    (∀ w, exec (.illegalRequest w) s = .next t → t = { s with faults := t.faults })

/-- O35 (20_memory.md R47, 40_transmit.md R71, 40_transmit.md R72, 40_transmit.md R73, 40_transmit.md R74,
40_transmit.md R77, 40_transmit.md R82, 41_init.md R91, 41_init.md R92; derived). Whenever an interface operation
gives a next state, it has appended at most its own event and only these fields besides trace and st may differ:
CS_ASSERT cs_n and the DAC; CS_DEASSERT cs_n, DAC and bus; BUS_ENABLE bus_en and polls; BUS_DISABLE bus_en and bus;
the three polls polls and outcome (a poll changes no state of the bus controller); the two pushes idx, polls and
bus, of which the wire is untouched; SEND3 outcome, bus_en, bus and DAC; DELAY nothing; RESULT in_init. Every other
field is as it was; the machine has no memory. -/
def Obligations.InterfaceFrames : Prop :=
  ∀ s t : State,
    (exec .csAssert s = .next t →
      t = { s with csN := t.csN, dac := t.dac, st := t.st, trace := s.trace ++ [.csAssert] }) ∧
    (exec .csDeassert s = .next t →
      t = { s with csN := t.csN, dac := t.dac, bus := t.bus, st := t.st, trace := s.trace ++ [.csDeassert] }) ∧
    (exec .busEnable s = .next t →
      t = { s with busEn := t.busEn, polls := t.polls, st := t.st, trace := s.trace ++ [.busEnable] }) ∧
    (exec .busDisable s = .next t →
      t = { s with busEn := t.busEn, bus := t.bus, st := t.st, trace := s.trace ++ [.busDisable] }) ∧
    (∀ v, exec (.pollTxe v) s = .next t →
      t = { s with polls := t.polls, outcome := t.outcome, st := t.st, trace := s.trace ++ [.pollTxe v] }) ∧
    (∀ n, exec (.pollFtlvl n) s = .next t →
      t = { s with polls := t.polls, outcome := t.outcome, st := t.st, trace := s.trace ++ [.pollFtlvl n] }) ∧
    (∀ b, exec (.pollBsy b) s = .next t →
      t = { s with polls := t.polls, outcome := t.outcome, st := t.st, trace := s.trace ++ [.pollBsy b] }) ∧
    (∀ b, exec (.pushByte b) s = .next t →
      t = { s with idx := t.idx, polls := t.polls, bus := { t.bus with wire := s.bus.wire }, st := t.st
                   trace := s.trace ++ [.pushByte b] }) ∧
    (∀ x y, exec (.pushHalf x y) s = .next t →
      t = { s with idx := t.idx, polls := t.polls, bus := { t.bus with wire := s.bus.wire }, st := t.st
                   trace := s.trace ++ [.pushHalf x y] }) ∧
    (∀ f, exec (.send3 f) s = .next t →
      t = { s with outcome := t.outcome, busEn := t.busEn, bus := t.bus, dac := t.dac, st := t.st, trace := t.trace } ∧
      (t.trace = s.trace ∨ t.trace = s.trace ++ [.send3 f])) ∧
    (∀ d, exec (.delay d) s = .next t → t = { s with st := t.st, trace := s.trace ++ [.delay d] }) ∧
    (∀ r, exec (.result r) s = .next t →
      t = { s with inInit := t.inInit, st := t.st, trace := s.trace ++ [.result r] })

/-! ## Whole-machine rules -/

/-- O36 (00_scope.md R6, 10_state.md R33; derived). For every step that is not a reset and gives a next state, the trace
after is the trace before followed by at most one event; after a reset it is empty. -/
def Obligations.TraceIsAppendOnly : Prop :=
  ∀ s t : State, step s = .next t →
    (s.env.move ≠ .reset → ∃ es, t.trace = s.trace ++ es ∧ es.length ≤ 1) ∧
    (s.env.move = .reset → t.trace = [])

/-- O37 (10_state.md R27, 70_reset_and_hazards.md R134; derived). For every step other than the platform's boot: if cs_n
changed, then either it went to 0 in CS_ON or B_CS_ON and CS_ASSERT was emitted, or it went to 1 in CS_OFF or
B_CS_OFF and CS_DEASSERT was emitted. The platform's boot is the model's own move (log 19). -/
def Obligations.OnlyChipSelectStepsDriveThePin : Prop :=
  ∀ s t : State, step s = .next t → s.env.move ≠ .configure → t.csN ≠ s.csN →
    ((s.st = .csOn ∨ s.st = .bCsOn) ∧ t.csN = false ∧ t.trace = s.trace ++ [.csAssert]) ∨
    ((s.st = .csOff ∨ s.st = .bCsOff) ∧ t.csN = true ∧ t.trace = s.trace ++ [.csDeassert])

/-- O38 (10_state.md R28, 70_reset_and_hazards.md R134, 93_implementation_defined.md U10; derived). For every step other
than the platform's boot: if bus_en changed, then either it went to 1 in EN with BUS_ENABLE emitted, or to 0 in DIS
with BUS_DISABLE emitted, or the block was in B_SEND and left it, or a reset abandoned a blocking send in progress.
A reset itself does not change it: what an abandoned send leaves there is a free value (log 17). That bus_en keeps
its value while a blocking send is held, where R28 lets the primitive write it, is the model's choice and unsafe
(log 16). The platform's boot is the model's own move (log 19). -/
def Obligations.OnlyEnableStepsWriteTheEnableBit : Prop :=
  ∀ s t : State, step s = .next t → s.env.move ≠ .configure → t.busEn ≠ s.busEn →
    (s.st = .en ∧ t.busEn = true ∧ t.trace = s.trace ++ [.busEnable]) ∨
    (s.st = .dis ∧ t.busEn = false ∧ t.trace = s.trace ++ [.busDisable]) ∨
    (s.st = .bSend ∧ t.st = .bCsOff) ∨
    (s.env.move = .reset ∧ s.bus.sending = true ∧ t.bus.sending = false)

/-- O39 (10_state.md R23, 20_memory.md R52, 20_memory.md R53, 40_transmit.md R70, 41_init.md R89, 41_init.md R90;
derived). For every step: the configuration is unchanged; and for every step that is not a reset, a frame that
changed was written in IDLE by accepting a request whose word decodes to TRANSMIT(c, k), and is then [c, k[15:8],
k[7:0]], or to INIT, and is then zero, or is the zero frame of I_TX. -/
def Obligations.FrameBufferWriters : Prop :=
  ∀ s t : State, step s = .next t →
    t.cfg = s.cfg ∧
    (s.env.move ≠ .reset → t.frame ≠ s.frame →
      (∃ r, s.env.move = .request r ∧ s.st = .idle ∧ s.faulted = false ∧
        ((∃ c k, decodeReq r.word = .transmit c k ∧ t.frame = ⟨c, k.extractLsb' 8 8, k.extractLsb' 0 8⟩ ∧
            t.st = s.firstSt) ∨
          (decodeReq r.word = .init ∧ t.frame = ⟨0x00, 0x00, 0x00⟩ ∧ t.st = .iTx))) ∨
      (s.env.move = .block ∧ s.st = .iTx ∧ t.frame = ⟨0x00, 0x00, 0x00⟩))

/-- O40 (10_state.md R29, 10_state.md R31, 41_init.md R89, 41_init.md R90, 41_init.md R91; derived). For every step that
is not a reset: in_init goes from 0 to 1 only when an INIT request is accepted in IDLE, with attempts then 0, and
from 1 to 0 only in DONE with a RESULT emitted; attempts that changed is 0 after accepting INIT, or one more after
I_TX. -/
def Obligations.AttemptCounterAndInitFlag : Prop :=
  ∀ s t : State, step s = .next t → s.env.move ≠ .reset →
    (s.inInit = false → t.inInit = true → (∃ r, s.env.move = .request r ∧ decodeReq r.word = .init) ∧
      s.st = .idle ∧ t.attempts = 0) ∧
    (s.inInit = true → t.inInit = false → s.st = .done ∧ t.trace = s.trace ++ [.result s.outcome]) ∧
    (t.attempts ≠ s.attempts →
      (s.st = .idle ∧ t.st = .iTx ∧ t.attempts = 0) ∨ (s.st = .iTx ∧ t.attempts = s.attempts + 1))

/-- O41 (70_reset_and_hazards.md R134, 10_state.md R28, 93_implementation_defined.md U10; derived). For every state
whatever, a faulted one and one in the middle of a request among them: the reset step answers a next state with st
IDLE, in_init 0, faults empty and trace empty (so no RESULT is reported for an abandoned request), cs_n as it was,
and bus_en as it was unless a blocking send is abandoned, so that a reset during a window leaves cs_n = 0. No value
is claimed for frame, idx, polls, outcome and attempts, to which the rule gives none. That a blocking send in
progress is over, and leaves a free value in bus_en, is the model's choice (log 17). -/
def Obligations.ResetWhateverTheState : Prop :=
  ∀ s : State, s.env.move = .reset →
    ∃ t, step s = .next t ∧ t.st = .idle ∧ t.inInit = false ∧ t.faults = ⟨false, false⟩ ∧ t.trace = [] ∧
      t.csN = s.csN ∧ t.busEn = (if s.bus.sending then s.env.sendBusEn else s.busEn) ∧ t.cfg = s.cfg

/-- O42 (70_reset_and_hazards.md R134, 70_reset_and_hazards.md R135, 00_scope.md R9, 00_scope.md R10, 00_scope.md R11,
00_scope.md R12, 00_scope.md R13; derived). State.reset has st IDLE, in_init 0, no fault, empty trace and the
default parameters, is a CLEAN_ENTRY state, and meets the control, pin, wire and trace invariants. That cs_n = 1,
bus_en = 0 and the bus is drained at reset is the model's choice (log 2, log 3), and so are the values of the
registers without a reset value (log 1). -/
def Obligations.ResetStateMeetsTheInvariants : Prop :=
  State.reset.st = .idle ∧ State.reset.inInit = false ∧ State.reset.faults = ⟨false, false⟩ ∧ State.reset.trace = [] ∧
  State.reset.cfg.variant = .polled ∧ State.reset.cfg.pushMode = .packed ∧ State.reset.cfg.waitBound = .unbounded ∧
  State.reset.cfg.retryDelay = 10 ∧ State.reset.cfg.maxAttempts = .unbounded ∧
  State.reset.cleanEntry ∧ State.reset.ctlInv ∧ State.reset.pinInv ∧ State.reset.wireInv ∧ State.reset.traceInv

/-- O43 (00_scope.md R6, 10_state.md R34, 10_state.md R35, 30_encoding.md R61, 60_exceptions.md R123; derived). When the
host presents a REQ32 word that decodes to i, the step is exec of i with the next inputs drawn in its next state;
when it presents the TRANSMIT word of a frame under the row of that frame, and the frame's FRAME24 word decodes to
i, likewise; at the block's turn with no fault recorded and an operation i named by its state, the step is exec of i
likewise. Drawing replaces the inputs by a free value and counts it, and changes nothing else. That a request may
run under the row of its frame is the model's choice (log 8), and so is the drawing of inputs (log 5). -/
def Obligations.StepRunsTheDecodedInstruction : Prop :=
  (∀ (s : State) (w : Word) (i : Instr), s.env.move = .request ⟨w, false⟩ → decode (.req32 w) = .ok i →
    step s = drawNext (exec i s)) ∧
  (∀ (s : State) (f : FrameWord) (i : Instr), s.env.move = .request ⟨0x01#8 ++ f, true⟩ →
    decode (.frame24 f) = .ok i → step s = drawNext (exec i s)) ∧
  (∀ (s : State) (i : Instr), s.env.move = .block → s.faulted = false → s.ownOp = some i →
    step s = drawNext (exec i s)) ∧
  (∀ s : State, drawNext (.next s) = .next { s with env := Config.nextEnv s.draws, draws := s.draws + 1 }) ∧
  (∀ f, drawNext (.fault f) = .fault f) ∧ (∀ r, drawNext (.refused r) = .refused r)

/-- O44 (00_scope.md R6, 60_exceptions.md R123; derived). For every state and every instruction well formed under its
configuration: after State.withInstr the instruction fetched is that instruction. How a program comes to run is the
model's choice (log 11). -/
def Obligations.PlacedInstructionIsFetched : Prop :=
  ∀ (s : State) (i : Instr), i.wf s.cfg = true → (s.withInstr i).fetch = some i

/-- O45 (00_scope.md R19, 40_transmit.md R82, 60_exceptions.md R121; derived). At the block's turn with no fault: in
IDLE, and in B_SEND while an issued send has not returned, the step answers the same state with the next inputs
drawn. That a hold is such a step is the model's choice (log 6), and so is it that nothing, the wire and bus_en
among it, changes while a send is held (log 16, unsafe). -/
def Obligations.HoldsMoveOnlyTheEnvironment : Prop :=
  ∀ s : State, s.faulted = false → s.env.move = .block →
    (s.st = .idle ∨ (s.st = .bSend ∧ s.bus.sending = true ∧ s.env.send = none)) → step s = .next s.draw

/-- O46 (00_scope.md R19, 10_state.md R35; derived). For every state, reachable or not: the step is not a refusal, and
if it is a fault then it is frameIndex, the block is in PUSH with idx = 3 and it is its turn. R19 gives a step a
next state, a fault or a hold: that a hold and the quiescence of a faulted block are steps to a next state (log 6),
that a model fault of R120 is recorded in a next state (log 7), and that a push past the frame stops the machine
(log 13) is the model's. -/
def Obligations.StepNeverRefuses : Prop :=
  ∀ s : State,
    (∀ r, step s ≠ .refused r) ∧
    (∀ f, step s = .fault f → f = .frameIndex ∧ s.st = .push ∧ s.idx = 3 ∧ s.env.move = .block)

/-- O47 (00_scope.md R19, 40_transmit.md R74; derived). For every state that meets the control invariant, whoever moves
and whatever the environment answers: the step answers a next state, so the machine never stops with a fault or a
refusal; and the next state meets the invariant again. R19 gives a step a next state, a fault or a hold: that a hold
and the quiescence of a faulted block are steps to a next state (log 6), and that a model fault of R120 is recorded
in a next state (log 7), is the model's choice. That a reset keeps the invariant rests on its ending a blocking send
in progress (log 17), marked by a field of the model's (log 16). -/
def Obligations.BlockAlwaysSteps : Prop :=
  ∀ s : State, s.ctlInv → ∃ t, step s = .next t ∧ t.ctlInv

/-! ## Invariants every step keeps -/

/-- O48 (10_state.md R22, 10_state.md R24, 10_state.md R25, 10_state.md R26, 40_transmit.md R73, 40_transmit.md R74,
40_transmit.md R80, 41_init.md R93, 42_interface.md R109, 60_exceptions.md R122; derived). For every state that
meets the control invariant and every step of any agent, resets among them, that gives a next state: that state
meets it too. The invariant: the configuration is legal; the state is one of the variant's; idx is 0 before TXWAIT,
below 3 in TXWAIT and PUSH, never 1 there under PACKED, 3 in the drain; outcome is OK up to the last poll or send,
then what R122 allows; in_init, attempts and frame fit INIT; in PUSH the last event is POLL_TXE(1); polls is below
WAIT_BOUND in a wait; a send is in progress only in B_SEND; the shifter holds at most one byte. That a reset ends a
blocking send in progress is the model's choice (log 17), where R134 is silent, and so is the field that marks one
(log 16). -/
def Obligations.ControlInvariantKept : Prop :=
  ∀ s t : State, s.ctlInv → step s = .next t → t.ctlInv

/-- O49 (40_transmit.md R85, 70_reset_and_hazards.md R138, 70_reset_and_hazards.md R139; derived). For every state that
meets the control and pin invariants and every step other than a reset that gives a next state: that state meets the
pin invariant too: cs_n = 0 exactly in the states after CS_ASSERT up to CS_OFF or B_CS_OFF, and in POLLED bus_en = 1
exactly in the states after BUS_ENABLE up to DIS. The platform's boot is the model's own move (log 19). -/
def Obligations.PinInvariantKept : Prop :=
  ∀ s t : State, s.ctlInv → s.pinInv → s.env.move ≠ .reset → step s = .next t → t.pinInv

/-- O50 (40_transmit.md R85, 40_transmit.md R87, 42_interface.md R111, 42_interface.md R112, 42_interface.md R113,
42_interface.md R116, 42_interface.md R117; derived). For every state that meets the control, pin and wire
invariants, whose answers obey the drain law, and every step other than a reset whose next state is not DIS, CS_OFF
or DONE of a transmit that timed out: the next state meets the wire invariant too, for both variants, both push
modes, any shifting of the bus controller between the block's steps. In particular, in DONE with outcome OK the last
frame the DAC received is exactly F. The paths of a transmit that timed out are left out. That the bus is drained
and the window empty while a blocking send is held rests on the model's transfer in the returning step (log 16,
unsafe), the DAC's record on its inference from R117 (log 18), and the platform's boot is its own move (log 19). -/
def Obligations.WireCarriesTheFrame : Prop :=
  ∀ s t : State, s.ctlInv → s.pinInv → s.wireInv → s.drainLaw → s.env.move ≠ .reset → step s = .next t →
    ¬ ((t.st = .dis ∨ t.st = .csOff ∨ t.st = .done) ∧ t.outcome = .timeout) → t.wireInv

/-- O51 (20_memory.md R50, 40_transmit.md R84, 40_transmit.md R85, 40_transmit.md R74, 40_transmit.md R80,
70_reset_and_hazards.md R138, 70_reset_and_hazards.md R139, 70_reset_and_hazards.md R140, 70_reset_and_hazards.md
R141; derived). The reader of traces accepts exactly the orders of R84 for the configuration: CS_ASSERT, BUS_ENABLE,
TXE polls and a push after each POLL_TXE(1), pairs or bytes by PUSH_MODE, three bytes in all, then FTLVL polls to 0,
BSY polls to 0, BUS_DISABLE, CS_DEASSERT, RESULT(OK); or under a bound, after n not-ready polls, BUS_DISABLE,
CS_DEASSERT, RESULT(TIMEOUT); or CS_ASSERT, SEND3, CS_DEASSERT and RESULT or DELAY (BLOCKING). For every state whose
trace it accepts as standing where the state says, and that meets the control invariant, and every step that gives a
next state: the same holds of the next state; the shape holds the bytes pushed, which are the frame's first idx
bytes in order, and the word sent, which is F. That a reset ends a blocking send in progress is the model's choice
(log 17), and so is the field that marks a send whose event is emitted (log 16). -/
def Obligations.TraceShapeKept : Prop :=
  ∀ s t : State, s.ctlInv → s.traceInv → step s = .next t → t.traceInv

/-- O52 (00_scope.md R11, 40_transmit.md R80, 40_transmit.md R86; derived). For every state of a POLLED transmit (CS_ON
to CS_OFF) that meets the control invariant with WAIT_BOUND = n and no fault: the block's step gives a next state
with fewer steps left, by a count that is at most 8 + 2n + 3(n + 2). So the transmit reaches DONE within that many
block steps even on a bus that never becomes ready. -/
def Obligations.BoundedTransmitEnds : Prop :=
  ∀ (s : State) (n : Nat), s.ctlInv → s.cfg.waitBound = .atMost n → s.st.isPolled = true → s.faulted = false →
    s.env.move = .block →
    ∃ t, step s = .next t ∧ t.stepsLeft n < s.stepsLeft n ∧ (t.st.isPolled = true ∨ t.st = .done) ∧
      s.stepsLeft n ≤ 8 + 2 * n + 3 * (n + 2)

/-- O53 (40_transmit.md R82, 40_transmit.md R84, 40_transmit.md R86, 42_interface.md R115; derived). For every state of
a transmit, POLLED or BLOCKING, that meets the control invariant and has no fault: at most 12 ready block steps are
left; the block's step and a shifting step of the bus controller give a next state of the transmit, or DONE, with no
more left, and the block's step whose poll or send, if it makes one, is answered ready gives one with fewer. And in
every infinite run of the block and its bus controller alone in which the block moves again and again and the bus is
responsive (R115), a transmit in progress comes to DONE, whatever else the environment answers. A request, which
faults the block, a reset and the platform's boot are no steps of such a run. -/
def Obligations.ReadyAnswersEndTheTransmit : Prop :=
  (∀ s : State, s.ctlInv → s.st.isPolled = true ∨ s.st.isBlocking = true → s.faulted = false →
    s.readyLeft ≤ 12 ∧
    (s.env.move = .block ∨ s.env.move = .shift →
      ∃ t, step s = .next t ∧ t.readyLeft ≤ s.readyLeft ∧
        (t.st.isPolled = true ∨ t.st.isBlocking = true ∨ t.st = .done) ∧
        (s.env.move = .block → s.answeredReady → t.readyLeft < s.readyLeft))) ∧
  (∀ run : Nat → State, transmitRun run → responsiveBus run → (run 0).ctlInv → (run 0).faulted = false →
    (run 0).st.isPolled = true ∨ (run 0).st.isBlocking = true → ∃ m, (run m).st = .done)

/-- O54 (R122; stated). For every state that meets the control invariant and every RESULT(r) it reports, to TRANSMIT or
INIT: r is OK if POLLED with unbounded waits; OK or TIMEOUT if POLLED with a bound; OK, BUSY or ERROR if BLOCKING;
and if in_init = 1 and r = BUSY then INIT_MAX_ATTEMPTS is a number that attempts has reached. -/
def Obligations.ResultsByConfiguration : Prop :=
  ∀ (s t : State) (r : Result), s.ctlInv → exec (.result r) s = .next t →
    (s.cfg.variant = .polled → s.cfg.waitBound = .unbounded → r = .ok) ∧
    (s.cfg.variant = .polled → ∀ n, s.cfg.waitBound = .atMost n → r = .ok ∨ r = .timeout) ∧
    (s.cfg.variant = .blocking → r = .ok ∨ r = .busy ∨ r = .error) ∧
    (s.inInit = true → r = .busy → ∃ n, s.cfg.maxAttempts = .atMost n ∧ n ≤ s.attempts)

/-- O55 (41_init.md R94, 40_transmit.md R85, 40_transmit.md R87; derived). For every state that meets the control, pin
and wire invariants with in_init = 1 that reports RESULT(OK): the next state has frame = [0, 0, 0], in_init 0, st
IDLE, cs_n 1, bus_en 0 in POLLED, and the last frame the DAC received is 0x000000. -/
def Obligations.InitLeavesTheLinkValidated : Prop :=
  ∀ s t : State, s.ctlInv → s.pinInv → s.wireInv → s.inInit = true → exec (.result .ok) s = .next t →
    t.frame = ⟨0x00, 0x00, 0x00⟩ ∧ t.inInit = false ∧ t.st = .idle ∧ t.csN = true ∧
    (t.cfg.variant = .polled → t.busEn = false) ∧ t.dac.received.getLast? = some (some 0x000000)

/-- O56 (70_reset_and_hazards.md R135, 40_transmit.md R85, 40_transmit.md R87; derived). For every state that meets the
control, pin and wire invariants and reports RESULT(OK): the next state meets CLEAN_ENTRY items 1 to 4, so a
following request needs no other premise, and the last frame the DAC received is F. -/
def Obligations.OkResultRestoresCleanEntry : Prop :=
  ∀ s t : State, s.ctlInv → s.pinInv → s.wireInv → exec (.result .ok) s = .next t →
    t.cleanEntry ∧ t.dac.received.getLast? = some (some t.frame.word)

/-! ## The bus controller and the DAC -/

/-- O57 (42_interface.md R109, 42_interface.md R112; derived). For every state where the bus controller moves: with
bus_en = 0 nothing of the machine changes; with bus_en = 1 and a byte in the shifter its first bit goes to the end
of the wire; with an idle shifter and a byte at the head of Q, that byte's 8 bits, most significant first, enter the
shifter and leave Q; with both empty nothing changes. What is on the wire followed by what is pending is the same
before and after, so the wire is always a prefix of the bits pushed, in push order. That one shifting step moves one
bit, or one byte from Q into the shifter, is the model's choice: R112 gives no size for a step (log 14). -/
def Obligations.ShiftingStep : Prop :=
  ∀ s : State, s.env.move = .shift →
    ∃ t, step s = .next t ∧ s.sameTuple t ∧
      t.bus.wire ++ t.bus.pending = s.bus.wire ++ s.bus.pending ∧
      (s.busEn = false → t = s.draw) ∧
      (s.busEn = true → ∀ b bs, s.bus.shifter = b :: bs →
        t.bus.wire = s.bus.wire ++ [b] ∧ t.bus.shifter = bs ∧ t.bus.queue = s.bus.queue) ∧
      (s.busEn = true → s.bus.shifter = [] → ∀ x q, s.bus.queue = x :: q →
        t.bus.wire = s.bus.wire ∧ t.bus.queue = q ∧
        t.bus.shifter = [x.getLsbD 7, x.getLsbD 6, x.getLsbD 5, x.getLsbD 4, x.getLsbD 3, x.getLsbD 2, x.getLsbD 1,
          x.getLsbD 0]) ∧
      (s.bus.shifter = [] → s.bus.queue = [] → t = s.draw)

/-- O58 (42_interface.md R114, 93_implementation_defined.md U4, 93_implementation_defined.md U5,
93_implementation_defined.md U6; derived). For every state and next state of the three operations the contract
leaves undefined (a push not right after POLL_TXE(1), BUS_DISABLE while BSY = 1, CS_DEASSERT while Q or sh holds
data), and of their lawful cases alike: what is pending after is, in order, a part of what was pending before
followed by the bits pushed, and the wire is unchanged by the operation. Which bits survive, and how queue and
shifter hold them, is a free value (log 15). And in every state that meets the control invariant the block's push is
not the first of the three. -/
def Obligations.OutOfContractLosesAtMost : Prop :=
  (∀ s t : State,
    (∀ x, exec (.pushByte x) s = .next t →
      t.bus.wire = s.bus.wire ∧ t.bus.pending.Sublist (s.bus.pending ++ wireBits x)) ∧
    (∀ x y, exec (.pushHalf x y) s = .next t →
      t.bus.wire = s.bus.wire ∧ t.bus.pending.Sublist (s.bus.pending ++ wireBits x ++ wireBits y)) ∧
    (exec .busDisable s = .next t ∨ exec .csDeassert s = .next t →
      t.bus.wire = s.bus.wire ∧ t.bus.pending.Sublist s.bus.pending)) ∧
  (∀ s : State, s.ctlInv → s.st = .push → s.trace.getLast? = some (.pollTxe true))

/-- O59 (42_interface.md R117, 42_interface.md R112; derived). For every state with cs_n = 0 that runs CS_DEASSERT: the
DAC's record gains one entry, which is F exactly when the bits shifted since chip-select fell are the 24 bits of F,
most significant first, and Q and sh are empty; with fewer than 24 bits, or with data in flight, it is no frame. A
falling chip-select starts the window with no bit, and bits shifted while cs_n = 1 do not enter it. What the DAC
does with a frame is outside the spec. That the DAC's record has one entry for each window, and that a window of any
other bits is no frame, is the model's inference from R117 (log 18). -/
def Obligations.DacTakesAFrame : Prop :=
  (∀ s t : State, s.csN = false → exec .csDeassert s = .next t →
    ∃ v, t.dac.received = s.dac.received ++ [v] ∧
      (∀ F : FrameWord, v = some F ↔ s.bus.drained = true ∧ s.dac.window = wireBits F) ∧
      (s.dac.window.length < 24 ∨ s.bus.drained = false → v = none)) ∧
  (∀ s t : State, s.csN = true → exec .csAssert s = .next t → t.dac.window = [] ∧ t.dac.received = s.dac.received) ∧
  (∀ s t : State, s.env.move = .shift → step s = .next t →
    (s.csN = true → t.dac = s.dac) ∧
    (s.csN = false → ∃ bits, t.bus.wire = s.bus.wire ++ bits ∧ t.dac.window = s.dac.window ++ bits ∧
      t.dac.received = s.dac.received))

/-! ## The platform -/

/-- O60 (70_reset_and_hazards.md R134, 70_reset_and_hazards.md R135, 70_reset_and_hazards.md R136, 20_memory.md R52;
derived). For every state at the platform's boot move. In IDLE with no fault and an empty trace (no request since
the launch or the last reset): the step leaves cs_n 1, bus_en 0 in POLLED and as it was in BLOCKING, queue and
shifter empty, and the rest of the tuple and the configuration as they were; where the control invariant holds, so
do CLEAN_ENTRY and the control, pin, wire and trace invariants after it, also after a reset in the middle of a
request. In any other state, and in a CLEAN_ENTRY state, the step changes nothing but the inputs drawn. The move is
the model's own (log 19). -/
def Obligations.PlatformBootEstablishesCleanEntry : Prop :=
  ∀ s : State, s.env.move = .configure →
    ∃ t, step s = .next t ∧
      (s.st = .idle → s.faulted = false → s.trace = [] →
        t.csN = true ∧ t.busEn = (if s.cfg.variant = .polled then false else s.busEn) ∧
        t.bus.queue = [] ∧ t.bus.shifter = [] ∧ t.bus.wire = s.bus.wire ∧ t.cfg = s.cfg ∧
        State.sameTuple { s with csN := t.csN, busEn := t.busEn } t ∧
        (s.ctlInv → t.cleanEntry ∧ t.ctlInv ∧ t.pinInv ∧ t.wireInv ∧ t.traceInv)) ∧
      (¬ (s.st = .idle ∧ s.faulted = false ∧ s.trace = []) ∨ s.cleanEntry → t = s.draw)
end

