-- ==== Sys2Proof/Laws/State.lean ====
section
/-! SUPPORT. Laws/State: for each named update of the state, what each field holds after it; a field not named by the
update is unchanged. -/

namespace Sys2Proof.Machine

/-! ## `State.emit` -/

@[simp] theorem State.emit_st (s : State) (e : Event) : (s.emit e).st = s.st := rfl
@[simp] theorem State.emit_frame (s : State) (e : Event) : (s.emit e).frame = s.frame := rfl
@[simp] theorem State.emit_idx (s : State) (e : Event) : (s.emit e).idx = s.idx := rfl
@[simp] theorem State.emit_polls (s : State) (e : Event) : (s.emit e).polls = s.polls := rfl
@[simp] theorem State.emit_outcome (s : State) (e : Event) : (s.emit e).outcome = s.outcome := rfl
@[simp] theorem State.emit_csN (s : State) (e : Event) : (s.emit e).csN = s.csN := rfl
@[simp] theorem State.emit_busEn (s : State) (e : Event) : (s.emit e).busEn = s.busEn := rfl
@[simp] theorem State.emit_inInit (s : State) (e : Event) : (s.emit e).inInit = s.inInit := rfl
@[simp] theorem State.emit_faults (s : State) (e : Event) : (s.emit e).faults = s.faults := rfl
@[simp] theorem State.emit_attempts (s : State) (e : Event) : (s.emit e).attempts = s.attempts := rfl
@[simp] theorem State.emit_trace (s : State) (e : Event) : (s.emit e).trace = s.trace ++ [e] := rfl
@[simp] theorem State.emit_bus (s : State) (e : Event) : (s.emit e).bus = s.bus := rfl
@[simp] theorem State.emit_dac (s : State) (e : Event) : (s.emit e).dac = s.dac := rfl
@[simp] theorem State.emit_cfg (s : State) (e : Event) : (s.emit e).cfg = s.cfg := rfl
@[simp] theorem State.emit_env (s : State) (e : Event) : (s.emit e).env = s.env := rfl
@[simp] theorem State.emit_draws (s : State) (e : Event) : (s.emit e).draws = s.draws := rfl

/-! ## `State.raiseFault` -/

@[simp] theorem State.raiseFault_st (s : State) (f : FaultName) : (s.raiseFault f).st = s.st := rfl
@[simp] theorem State.raiseFault_frame (s : State) (f : FaultName) : (s.raiseFault f).frame = s.frame := rfl
@[simp] theorem State.raiseFault_idx (s : State) (f : FaultName) : (s.raiseFault f).idx = s.idx := rfl
@[simp] theorem State.raiseFault_polls (s : State) (f : FaultName) : (s.raiseFault f).polls = s.polls := rfl
@[simp] theorem State.raiseFault_outcome (s : State) (f : FaultName) : (s.raiseFault f).outcome = s.outcome := rfl
@[simp] theorem State.raiseFault_csN (s : State) (f : FaultName) : (s.raiseFault f).csN = s.csN := rfl
@[simp] theorem State.raiseFault_busEn (s : State) (f : FaultName) : (s.raiseFault f).busEn = s.busEn := rfl
@[simp] theorem State.raiseFault_inInit (s : State) (f : FaultName) : (s.raiseFault f).inInit = s.inInit := rfl
@[simp] theorem State.raiseFault_faults (s : State) (f : FaultName) : (s.raiseFault f).faults = s.faults.add f := rfl
@[simp] theorem State.raiseFault_attempts (s : State) (f : FaultName) : (s.raiseFault f).attempts = s.attempts := rfl
@[simp] theorem State.raiseFault_trace (s : State) (f : FaultName) : (s.raiseFault f).trace = s.trace := rfl
@[simp] theorem State.raiseFault_bus (s : State) (f : FaultName) : (s.raiseFault f).bus = s.bus := rfl
@[simp] theorem State.raiseFault_dac (s : State) (f : FaultName) : (s.raiseFault f).dac = s.dac := rfl
@[simp] theorem State.raiseFault_cfg (s : State) (f : FaultName) : (s.raiseFault f).cfg = s.cfg := rfl
@[simp] theorem State.raiseFault_env (s : State) (f : FaultName) : (s.raiseFault f).env = s.env := rfl
@[simp] theorem State.raiseFault_draws (s : State) (f : FaultName) : (s.raiseFault f).draws = s.draws := rfl

/-! ## `State.draw` -/

@[simp] theorem State.draw_st (s : State) : (s.draw).st = s.st := rfl
@[simp] theorem State.draw_frame (s : State) : (s.draw).frame = s.frame := rfl
@[simp] theorem State.draw_idx (s : State) : (s.draw).idx = s.idx := rfl
@[simp] theorem State.draw_polls (s : State) : (s.draw).polls = s.polls := rfl
@[simp] theorem State.draw_outcome (s : State) : (s.draw).outcome = s.outcome := rfl
@[simp] theorem State.draw_csN (s : State) : (s.draw).csN = s.csN := rfl
@[simp] theorem State.draw_busEn (s : State) : (s.draw).busEn = s.busEn := rfl
@[simp] theorem State.draw_inInit (s : State) : (s.draw).inInit = s.inInit := rfl
@[simp] theorem State.draw_faults (s : State) : (s.draw).faults = s.faults := rfl
@[simp] theorem State.draw_attempts (s : State) : (s.draw).attempts = s.attempts := rfl
@[simp] theorem State.draw_trace (s : State) : (s.draw).trace = s.trace := rfl
@[simp] theorem State.draw_bus (s : State) : (s.draw).bus = s.bus := rfl
@[simp] theorem State.draw_dac (s : State) : (s.draw).dac = s.dac := rfl
@[simp] theorem State.draw_cfg (s : State) : (s.draw).cfg = s.cfg := rfl
@[simp] theorem State.draw_env (s : State) : (s.draw).env = Config.nextEnv s.draws := rfl
@[simp] theorem State.draw_draws (s : State) : (s.draw).draws = s.draws + 1 := rfl

/-! ## `State.enableBus` -/

@[simp] theorem State.enableBus_st (s : State) : (s.enableBus).st = s.st := rfl
@[simp] theorem State.enableBus_frame (s : State) : (s.enableBus).frame = s.frame := rfl
@[simp] theorem State.enableBus_idx (s : State) : (s.enableBus).idx = s.idx := rfl
@[simp] theorem State.enableBus_polls (s : State) : (s.enableBus).polls = s.polls := rfl
@[simp] theorem State.enableBus_outcome (s : State) : (s.enableBus).outcome = s.outcome := rfl
@[simp] theorem State.enableBus_csN (s : State) : (s.enableBus).csN = s.csN := rfl
@[simp] theorem State.enableBus_busEn (s : State) : (s.enableBus).busEn = true := rfl
@[simp] theorem State.enableBus_inInit (s : State) : (s.enableBus).inInit = s.inInit := rfl
@[simp] theorem State.enableBus_faults (s : State) : (s.enableBus).faults = s.faults := rfl
@[simp] theorem State.enableBus_attempts (s : State) : (s.enableBus).attempts = s.attempts := rfl
@[simp] theorem State.enableBus_trace (s : State) : (s.enableBus).trace = s.trace := rfl
@[simp] theorem State.enableBus_bus (s : State) : (s.enableBus).bus = s.bus := rfl
@[simp] theorem State.enableBus_dac (s : State) : (s.enableBus).dac = s.dac := rfl
@[simp] theorem State.enableBus_cfg (s : State) : (s.enableBus).cfg = s.cfg := rfl
@[simp] theorem State.enableBus_env (s : State) : (s.enableBus).env = s.env := rfl
@[simp] theorem State.enableBus_draws (s : State) : (s.enableBus).draws = s.draws := rfl

/-! ## `State.acceptTransmit` -/

@[simp] theorem State.acceptTransmit_st (s : State) (cmd : Byte) (code : Code) : (s.acceptTransmit cmd code).st = s.firstSt := rfl
@[simp] theorem State.acceptTransmit_frame (s : State) (cmd : Byte) (code : Code) : (s.acceptTransmit cmd code).frame = frameOf cmd code := rfl
@[simp] theorem State.acceptTransmit_idx (s : State) (cmd : Byte) (code : Code) : (s.acceptTransmit cmd code).idx = 0 := rfl
@[simp] theorem State.acceptTransmit_polls (s : State) (cmd : Byte) (code : Code) : (s.acceptTransmit cmd code).polls = s.polls := rfl
@[simp] theorem State.acceptTransmit_outcome (s : State) (cmd : Byte) (code : Code) : (s.acceptTransmit cmd code).outcome = .ok := rfl
@[simp] theorem State.acceptTransmit_csN (s : State) (cmd : Byte) (code : Code) : (s.acceptTransmit cmd code).csN = s.csN := rfl
@[simp] theorem State.acceptTransmit_busEn (s : State) (cmd : Byte) (code : Code) : (s.acceptTransmit cmd code).busEn = s.busEn := rfl
@[simp] theorem State.acceptTransmit_inInit (s : State) (cmd : Byte) (code : Code) : (s.acceptTransmit cmd code).inInit = s.inInit := rfl
@[simp] theorem State.acceptTransmit_faults (s : State) (cmd : Byte) (code : Code) : (s.acceptTransmit cmd code).faults = s.faults := rfl
@[simp] theorem State.acceptTransmit_attempts (s : State) (cmd : Byte) (code : Code) : (s.acceptTransmit cmd code).attempts = s.attempts := rfl
@[simp] theorem State.acceptTransmit_trace (s : State) (cmd : Byte) (code : Code) : (s.acceptTransmit cmd code).trace = s.trace := rfl
@[simp] theorem State.acceptTransmit_bus (s : State) (cmd : Byte) (code : Code) : (s.acceptTransmit cmd code).bus = s.bus := rfl
@[simp] theorem State.acceptTransmit_dac (s : State) (cmd : Byte) (code : Code) : (s.acceptTransmit cmd code).dac = s.dac := rfl
@[simp] theorem State.acceptTransmit_cfg (s : State) (cmd : Byte) (code : Code) : (s.acceptTransmit cmd code).cfg = s.cfg := rfl
@[simp] theorem State.acceptTransmit_env (s : State) (cmd : Byte) (code : Code) : (s.acceptTransmit cmd code).env = s.env := rfl
@[simp] theorem State.acceptTransmit_draws (s : State) (cmd : Byte) (code : Code) : (s.acceptTransmit cmd code).draws = s.draws := rfl

/-! ## `State.acceptInit` -/

@[simp] theorem State.acceptInit_st (s : State) : (s.acceptInit).st = .iTx := rfl
@[simp] theorem State.acceptInit_frame (s : State) : (s.acceptInit).frame = ⟨0x00, 0x00, 0x00⟩ := rfl
@[simp] theorem State.acceptInit_idx (s : State) : (s.acceptInit).idx = s.idx := rfl
@[simp] theorem State.acceptInit_polls (s : State) : (s.acceptInit).polls = s.polls := rfl
@[simp] theorem State.acceptInit_outcome (s : State) : (s.acceptInit).outcome = s.outcome := rfl
@[simp] theorem State.acceptInit_csN (s : State) : (s.acceptInit).csN = s.csN := rfl
@[simp] theorem State.acceptInit_busEn (s : State) : (s.acceptInit).busEn = s.busEn := rfl
@[simp] theorem State.acceptInit_inInit (s : State) : (s.acceptInit).inInit = true := rfl
@[simp] theorem State.acceptInit_faults (s : State) : (s.acceptInit).faults = s.faults := rfl
@[simp] theorem State.acceptInit_attempts (s : State) : (s.acceptInit).attempts = 0 := rfl
@[simp] theorem State.acceptInit_trace (s : State) : (s.acceptInit).trace = s.trace := rfl
@[simp] theorem State.acceptInit_bus (s : State) : (s.acceptInit).bus = s.bus := rfl
@[simp] theorem State.acceptInit_dac (s : State) : (s.acceptInit).dac = s.dac := rfl
@[simp] theorem State.acceptInit_cfg (s : State) : (s.acceptInit).cfg = s.cfg := rfl
@[simp] theorem State.acceptInit_env (s : State) : (s.acceptInit).env = s.env := rfl
@[simp] theorem State.acceptInit_draws (s : State) : (s.acceptInit).draws = s.draws := rfl

/-! ## `State.initAttempt` -/

@[simp] theorem State.initAttempt_st (s : State) : (s.initAttempt).st = s.firstSt := rfl
@[simp] theorem State.initAttempt_frame (s : State) : (s.initAttempt).frame = ⟨0x00, 0x00, 0x00⟩ := rfl
@[simp] theorem State.initAttempt_idx (s : State) : (s.initAttempt).idx = 0 := rfl
@[simp] theorem State.initAttempt_polls (s : State) : (s.initAttempt).polls = s.polls := rfl
@[simp] theorem State.initAttempt_outcome (s : State) : (s.initAttempt).outcome = .ok := rfl
@[simp] theorem State.initAttempt_csN (s : State) : (s.initAttempt).csN = s.csN := rfl
@[simp] theorem State.initAttempt_busEn (s : State) : (s.initAttempt).busEn = s.busEn := rfl
@[simp] theorem State.initAttempt_inInit (s : State) : (s.initAttempt).inInit = s.inInit := rfl
@[simp] theorem State.initAttempt_faults (s : State) : (s.initAttempt).faults = s.faults := rfl
@[simp] theorem State.initAttempt_attempts (s : State) : (s.initAttempt).attempts = s.attempts + 1 := rfl
@[simp] theorem State.initAttempt_trace (s : State) : (s.initAttempt).trace = s.trace := rfl
@[simp] theorem State.initAttempt_bus (s : State) : (s.initAttempt).bus = s.bus := rfl
@[simp] theorem State.initAttempt_dac (s : State) : (s.initAttempt).dac = s.dac := rfl
@[simp] theorem State.initAttempt_cfg (s : State) : (s.initAttempt).cfg = s.cfg := rfl
@[simp] theorem State.initAttempt_env (s : State) : (s.initAttempt).env = s.env := rfl
@[simp] theorem State.initAttempt_draws (s : State) : (s.initAttempt).draws = s.draws := rfl

/-! ## `State.shiftOut` -/

@[simp] theorem State.shiftOut_st (s : State) (bits : List Bool) : (s.shiftOut bits).st = s.st := rfl
@[simp] theorem State.shiftOut_frame (s : State) (bits : List Bool) : (s.shiftOut bits).frame = s.frame := rfl
@[simp] theorem State.shiftOut_idx (s : State) (bits : List Bool) : (s.shiftOut bits).idx = s.idx := rfl
@[simp] theorem State.shiftOut_polls (s : State) (bits : List Bool) : (s.shiftOut bits).polls = s.polls := rfl
@[simp] theorem State.shiftOut_outcome (s : State) (bits : List Bool) : (s.shiftOut bits).outcome = s.outcome := rfl
@[simp] theorem State.shiftOut_csN (s : State) (bits : List Bool) : (s.shiftOut bits).csN = s.csN := rfl
@[simp] theorem State.shiftOut_busEn (s : State) (bits : List Bool) : (s.shiftOut bits).busEn = s.busEn := rfl
@[simp] theorem State.shiftOut_inInit (s : State) (bits : List Bool) : (s.shiftOut bits).inInit = s.inInit := rfl
@[simp] theorem State.shiftOut_faults (s : State) (bits : List Bool) : (s.shiftOut bits).faults = s.faults := rfl
@[simp] theorem State.shiftOut_attempts (s : State) (bits : List Bool) : (s.shiftOut bits).attempts = s.attempts := rfl
@[simp] theorem State.shiftOut_trace (s : State) (bits : List Bool) : (s.shiftOut bits).trace = s.trace := rfl
@[simp] theorem State.shiftOut_cfg (s : State) (bits : List Bool) : (s.shiftOut bits).cfg = s.cfg := rfl
@[simp] theorem State.shiftOut_env (s : State) (bits : List Bool) : (s.shiftOut bits).env = s.env := rfl
@[simp] theorem State.shiftOut_draws (s : State) (bits : List Bool) : (s.shiftOut bits).draws = s.draws := rfl

/-! ## `State.pushBytes` -/

@[simp] theorem State.pushBytes_st (s : State) (bs : List Byte) : (s.pushBytes bs).st = s.st := rfl
@[simp] theorem State.pushBytes_frame (s : State) (bs : List Byte) : (s.pushBytes bs).frame = s.frame := rfl
@[simp] theorem State.pushBytes_idx (s : State) (bs : List Byte) : (s.pushBytes bs).idx = s.idx := rfl
@[simp] theorem State.pushBytes_polls (s : State) (bs : List Byte) : (s.pushBytes bs).polls = s.polls := rfl
@[simp] theorem State.pushBytes_outcome (s : State) (bs : List Byte) : (s.pushBytes bs).outcome = s.outcome := rfl
@[simp] theorem State.pushBytes_csN (s : State) (bs : List Byte) : (s.pushBytes bs).csN = s.csN := rfl
@[simp] theorem State.pushBytes_busEn (s : State) (bs : List Byte) : (s.pushBytes bs).busEn = s.busEn := rfl
@[simp] theorem State.pushBytes_inInit (s : State) (bs : List Byte) : (s.pushBytes bs).inInit = s.inInit := rfl
@[simp] theorem State.pushBytes_faults (s : State) (bs : List Byte) : (s.pushBytes bs).faults = s.faults := rfl
@[simp] theorem State.pushBytes_attempts (s : State) (bs : List Byte) : (s.pushBytes bs).attempts = s.attempts := rfl
@[simp] theorem State.pushBytes_trace (s : State) (bs : List Byte) : (s.pushBytes bs).trace = s.trace := rfl
@[simp] theorem State.pushBytes_sending (s : State) (bs : List Byte) : (s.pushBytes bs).bus.sending = s.bus.sending := by
  unfold State.pushBytes; dsimp only; split <;> rfl
@[simp] theorem State.pushBytes_wire (s : State) (bs : List Byte) : (s.pushBytes bs).bus.wire = s.bus.wire := by
  unfold State.pushBytes; dsimp only; split <;> rfl
@[simp] theorem State.pushBytes_dac (s : State) (bs : List Byte) : (s.pushBytes bs).dac = s.dac := rfl
@[simp] theorem State.pushBytes_cfg (s : State) (bs : List Byte) : (s.pushBytes bs).cfg = s.cfg := rfl
@[simp] theorem State.pushBytes_env (s : State) (bs : List Byte) : (s.pushBytes bs).env = s.env := rfl
@[simp] theorem State.pushBytes_draws (s : State) (bs : List Byte) : (s.pushBytes bs).draws = s.draws := rfl

/-! ## `State.disableBus` -/

@[simp] theorem State.disableBus_st (s : State) : (s.disableBus).st = s.st := rfl
@[simp] theorem State.disableBus_frame (s : State) : (s.disableBus).frame = s.frame := rfl
@[simp] theorem State.disableBus_idx (s : State) : (s.disableBus).idx = s.idx := rfl
@[simp] theorem State.disableBus_polls (s : State) : (s.disableBus).polls = s.polls := rfl
@[simp] theorem State.disableBus_outcome (s : State) : (s.disableBus).outcome = s.outcome := rfl
@[simp] theorem State.disableBus_csN (s : State) : (s.disableBus).csN = s.csN := rfl
@[simp] theorem State.disableBus_busEn (s : State) : (s.disableBus).busEn = false := rfl
@[simp] theorem State.disableBus_inInit (s : State) : (s.disableBus).inInit = s.inInit := rfl
@[simp] theorem State.disableBus_faults (s : State) : (s.disableBus).faults = s.faults := rfl
@[simp] theorem State.disableBus_attempts (s : State) : (s.disableBus).attempts = s.attempts := rfl
@[simp] theorem State.disableBus_trace (s : State) : (s.disableBus).trace = s.trace := rfl
@[simp] theorem State.disableBus_sending (s : State) : (s.disableBus).bus.sending = s.bus.sending := by
  unfold State.disableBus; dsimp only; split <;> rfl
@[simp] theorem State.disableBus_wire (s : State) : (s.disableBus).bus.wire = s.bus.wire := by
  unfold State.disableBus; dsimp only; split <;> rfl
@[simp] theorem State.disableBus_dac (s : State) : (s.disableBus).dac = s.dac := rfl
@[simp] theorem State.disableBus_cfg (s : State) : (s.disableBus).cfg = s.cfg := rfl
@[simp] theorem State.disableBus_env (s : State) : (s.disableBus).env = s.env := rfl
@[simp] theorem State.disableBus_draws (s : State) : (s.disableBus).draws = s.draws := rfl

/-! ## `State.afterPush` -/

@[simp] theorem State.afterPush_frame (s : State) (k : Nat) : (s.afterPush k).frame = s.frame := rfl
@[simp] theorem State.afterPush_idx (s : State) (k : Nat) : (s.afterPush k).idx = s.idxPlus k := rfl
@[simp] theorem State.afterPush_polls (s : State) (k : Nat) : (s.afterPush k).polls = 0 := rfl
@[simp] theorem State.afterPush_outcome (s : State) (k : Nat) : (s.afterPush k).outcome = s.outcome := rfl
@[simp] theorem State.afterPush_csN (s : State) (k : Nat) : (s.afterPush k).csN = s.csN := rfl
@[simp] theorem State.afterPush_busEn (s : State) (k : Nat) : (s.afterPush k).busEn = s.busEn := rfl
@[simp] theorem State.afterPush_inInit (s : State) (k : Nat) : (s.afterPush k).inInit = s.inInit := rfl
@[simp] theorem State.afterPush_faults (s : State) (k : Nat) : (s.afterPush k).faults = s.faults := rfl
@[simp] theorem State.afterPush_attempts (s : State) (k : Nat) : (s.afterPush k).attempts = s.attempts := rfl
@[simp] theorem State.afterPush_trace (s : State) (k : Nat) : (s.afterPush k).trace = s.trace := rfl
@[simp] theorem State.afterPush_bus (s : State) (k : Nat) : (s.afterPush k).bus = s.bus := rfl
@[simp] theorem State.afterPush_dac (s : State) (k : Nat) : (s.afterPush k).dac = s.dac := rfl
@[simp] theorem State.afterPush_cfg (s : State) (k : Nat) : (s.afterPush k).cfg = s.cfg := rfl
@[simp] theorem State.afterPush_env (s : State) (k : Nat) : (s.afterPush k).env = s.env := rfl
@[simp] theorem State.afterPush_draws (s : State) (k : Nat) : (s.afterPush k).draws = s.draws := rfl

/-! ## `State.notReady` -/

@[simp] theorem State.notReady_frame (s : State) (w : St) : (s.notReady w).frame = s.frame := by
  unfold State.notReady; split <;> [rfl; split <;> rfl]
@[simp] theorem State.notReady_idx (s : State) (w : St) : (s.notReady w).idx = s.idx := by
  unfold State.notReady; split <;> [rfl; split <;> rfl]
@[simp] theorem State.notReady_csN (s : State) (w : St) : (s.notReady w).csN = s.csN := by
  unfold State.notReady; split <;> [rfl; split <;> rfl]
@[simp] theorem State.notReady_busEn (s : State) (w : St) : (s.notReady w).busEn = s.busEn := by
  unfold State.notReady; split <;> [rfl; split <;> rfl]
@[simp] theorem State.notReady_inInit (s : State) (w : St) : (s.notReady w).inInit = s.inInit := by
  unfold State.notReady; split <;> [rfl; split <;> rfl]
@[simp] theorem State.notReady_faults (s : State) (w : St) : (s.notReady w).faults = s.faults := by
  unfold State.notReady; split <;> [rfl; split <;> rfl]
@[simp] theorem State.notReady_attempts (s : State) (w : St) : (s.notReady w).attempts = s.attempts := by
  unfold State.notReady; split <;> [rfl; split <;> rfl]
@[simp] theorem State.notReady_trace (s : State) (w : St) : (s.notReady w).trace = s.trace := by
  unfold State.notReady; split <;> [rfl; split <;> rfl]
@[simp] theorem State.notReady_bus (s : State) (w : St) : (s.notReady w).bus = s.bus := by
  unfold State.notReady; split <;> [rfl; split <;> rfl]
@[simp] theorem State.notReady_dac (s : State) (w : St) : (s.notReady w).dac = s.dac := by
  unfold State.notReady; split <;> [rfl; split <;> rfl]
@[simp] theorem State.notReady_cfg (s : State) (w : St) : (s.notReady w).cfg = s.cfg := by
  unfold State.notReady; split <;> [rfl; split <;> rfl]
@[simp] theorem State.notReady_env (s : State) (w : St) : (s.notReady w).env = s.env := by
  unfold State.notReady; split <;> [rfl; split <;> rfl]
@[simp] theorem State.notReady_draws (s : State) (w : St) : (s.notReady w).draws = s.draws := by
  unfold State.notReady; split <;> [rfl; split <;> rfl]

/-! ## `State.afterTxe` -/

@[simp] theorem State.afterTxe_frame (s : State) (v : Bool) : (s.afterTxe v).frame = s.frame := by
  unfold State.afterTxe; split <;> simp
@[simp] theorem State.afterTxe_idx (s : State) (v : Bool) : (s.afterTxe v).idx = s.idx := by
  unfold State.afterTxe; split <;> simp
@[simp] theorem State.afterTxe_csN (s : State) (v : Bool) : (s.afterTxe v).csN = s.csN := by
  unfold State.afterTxe; split <;> simp
@[simp] theorem State.afterTxe_busEn (s : State) (v : Bool) : (s.afterTxe v).busEn = s.busEn := by
  unfold State.afterTxe; split <;> simp
@[simp] theorem State.afterTxe_inInit (s : State) (v : Bool) : (s.afterTxe v).inInit = s.inInit := by
  unfold State.afterTxe; split <;> simp
@[simp] theorem State.afterTxe_faults (s : State) (v : Bool) : (s.afterTxe v).faults = s.faults := by
  unfold State.afterTxe; split <;> simp
@[simp] theorem State.afterTxe_attempts (s : State) (v : Bool) : (s.afterTxe v).attempts = s.attempts := by
  unfold State.afterTxe; split <;> simp
@[simp] theorem State.afterTxe_trace (s : State) (v : Bool) : (s.afterTxe v).trace = s.trace := by
  unfold State.afterTxe; split <;> simp
@[simp] theorem State.afterTxe_bus (s : State) (v : Bool) : (s.afterTxe v).bus = s.bus := by
  unfold State.afterTxe; split <;> simp
@[simp] theorem State.afterTxe_dac (s : State) (v : Bool) : (s.afterTxe v).dac = s.dac := by
  unfold State.afterTxe; split <;> simp
@[simp] theorem State.afterTxe_cfg (s : State) (v : Bool) : (s.afterTxe v).cfg = s.cfg := by
  unfold State.afterTxe; split <;> simp
@[simp] theorem State.afterTxe_env (s : State) (v : Bool) : (s.afterTxe v).env = s.env := by
  unfold State.afterTxe; split <;> simp
@[simp] theorem State.afterTxe_draws (s : State) (v : Bool) : (s.afterTxe v).draws = s.draws := by
  unfold State.afterTxe; split <;> simp

/-! ## `State.afterFtlvl` -/

@[simp] theorem State.afterFtlvl_frame (s : State) (n : FrameWord) : (s.afterFtlvl n).frame = s.frame := by
  unfold State.afterFtlvl; split <;> simp
@[simp] theorem State.afterFtlvl_idx (s : State) (n : FrameWord) : (s.afterFtlvl n).idx = s.idx := by
  unfold State.afterFtlvl; split <;> simp
@[simp] theorem State.afterFtlvl_csN (s : State) (n : FrameWord) : (s.afterFtlvl n).csN = s.csN := by
  unfold State.afterFtlvl; split <;> simp
@[simp] theorem State.afterFtlvl_busEn (s : State) (n : FrameWord) : (s.afterFtlvl n).busEn = s.busEn := by
  unfold State.afterFtlvl; split <;> simp
@[simp] theorem State.afterFtlvl_inInit (s : State) (n : FrameWord) : (s.afterFtlvl n).inInit = s.inInit := by
  unfold State.afterFtlvl; split <;> simp
@[simp] theorem State.afterFtlvl_faults (s : State) (n : FrameWord) : (s.afterFtlvl n).faults = s.faults := by
  unfold State.afterFtlvl; split <;> simp
@[simp] theorem State.afterFtlvl_attempts (s : State) (n : FrameWord) : (s.afterFtlvl n).attempts = s.attempts := by
  unfold State.afterFtlvl; split <;> simp
@[simp] theorem State.afterFtlvl_trace (s : State) (n : FrameWord) : (s.afterFtlvl n).trace = s.trace := by
  unfold State.afterFtlvl; split <;> simp
@[simp] theorem State.afterFtlvl_bus (s : State) (n : FrameWord) : (s.afterFtlvl n).bus = s.bus := by
  unfold State.afterFtlvl; split <;> simp
@[simp] theorem State.afterFtlvl_dac (s : State) (n : FrameWord) : (s.afterFtlvl n).dac = s.dac := by
  unfold State.afterFtlvl; split <;> simp
@[simp] theorem State.afterFtlvl_cfg (s : State) (n : FrameWord) : (s.afterFtlvl n).cfg = s.cfg := by
  unfold State.afterFtlvl; split <;> simp
@[simp] theorem State.afterFtlvl_env (s : State) (n : FrameWord) : (s.afterFtlvl n).env = s.env := by
  unfold State.afterFtlvl; split <;> simp
@[simp] theorem State.afterFtlvl_draws (s : State) (n : FrameWord) : (s.afterFtlvl n).draws = s.draws := by
  unfold State.afterFtlvl; split <;> simp

/-! ## `State.afterBsy` -/

@[simp] theorem State.afterBsy_frame (s : State) (b : Bool) : (s.afterBsy b).frame = s.frame := by
  unfold State.afterBsy; split <;> simp
@[simp] theorem State.afterBsy_idx (s : State) (b : Bool) : (s.afterBsy b).idx = s.idx := by
  unfold State.afterBsy; split <;> simp
@[simp] theorem State.afterBsy_csN (s : State) (b : Bool) : (s.afterBsy b).csN = s.csN := by
  unfold State.afterBsy; split <;> simp
@[simp] theorem State.afterBsy_busEn (s : State) (b : Bool) : (s.afterBsy b).busEn = s.busEn := by
  unfold State.afterBsy; split <;> simp
@[simp] theorem State.afterBsy_inInit (s : State) (b : Bool) : (s.afterBsy b).inInit = s.inInit := by
  unfold State.afterBsy; split <;> simp
@[simp] theorem State.afterBsy_faults (s : State) (b : Bool) : (s.afterBsy b).faults = s.faults := by
  unfold State.afterBsy; split <;> simp
@[simp] theorem State.afterBsy_attempts (s : State) (b : Bool) : (s.afterBsy b).attempts = s.attempts := by
  unfold State.afterBsy; split <;> simp
@[simp] theorem State.afterBsy_trace (s : State) (b : Bool) : (s.afterBsy b).trace = s.trace := by
  unfold State.afterBsy; split <;> simp
@[simp] theorem State.afterBsy_bus (s : State) (b : Bool) : (s.afterBsy b).bus = s.bus := by
  unfold State.afterBsy; split <;> simp
@[simp] theorem State.afterBsy_dac (s : State) (b : Bool) : (s.afterBsy b).dac = s.dac := by
  unfold State.afterBsy; split <;> simp
@[simp] theorem State.afterBsy_cfg (s : State) (b : Bool) : (s.afterBsy b).cfg = s.cfg := by
  unfold State.afterBsy; split <;> simp
@[simp] theorem State.afterBsy_env (s : State) (b : Bool) : (s.afterBsy b).env = s.env := by
  unfold State.afterBsy; split <;> simp
@[simp] theorem State.afterBsy_draws (s : State) (b : Bool) : (s.afterBsy b).draws = s.draws := by
  unfold State.afterBsy; split <;> simp

/-! ## `State.csLow` -/

@[simp] theorem State.csLow_st (s : State) : (s.csLow).st = s.st := by
  unfold State.csLow; split <;> rfl
@[simp] theorem State.csLow_frame (s : State) : (s.csLow).frame = s.frame := by
  unfold State.csLow; split <;> rfl
@[simp] theorem State.csLow_idx (s : State) : (s.csLow).idx = s.idx := by
  unfold State.csLow; split <;> rfl
@[simp] theorem State.csLow_polls (s : State) : (s.csLow).polls = s.polls := by
  unfold State.csLow; split <;> rfl
@[simp] theorem State.csLow_outcome (s : State) : (s.csLow).outcome = s.outcome := by
  unfold State.csLow; split <;> rfl
@[simp] theorem State.csLow_csN (s : State) : (s.csLow).csN = false := by
  unfold State.csLow; split <;> simp_all
@[simp] theorem State.csLow_busEn (s : State) : (s.csLow).busEn = s.busEn := by
  unfold State.csLow; split <;> rfl
@[simp] theorem State.csLow_inInit (s : State) : (s.csLow).inInit = s.inInit := by
  unfold State.csLow; split <;> rfl
@[simp] theorem State.csLow_faults (s : State) : (s.csLow).faults = s.faults := by
  unfold State.csLow; split <;> rfl
@[simp] theorem State.csLow_attempts (s : State) : (s.csLow).attempts = s.attempts := by
  unfold State.csLow; split <;> rfl
@[simp] theorem State.csLow_trace (s : State) : (s.csLow).trace = s.trace := by
  unfold State.csLow; split <;> rfl
@[simp] theorem State.csLow_bus (s : State) : (s.csLow).bus = s.bus := by
  unfold State.csLow; split <;> rfl
@[simp] theorem State.csLow_cfg (s : State) : (s.csLow).cfg = s.cfg := by
  unfold State.csLow; split <;> rfl
@[simp] theorem State.csLow_env (s : State) : (s.csLow).env = s.env := by
  unfold State.csLow; split <;> rfl
@[simp] theorem State.csLow_draws (s : State) : (s.csLow).draws = s.draws := by
  unfold State.csLow; split <;> rfl

/-! ## `State.csHigh` -/

@[simp] theorem State.csHigh_st (s : State) : (s.csHigh).st = s.st := by
  unfold State.csHigh; split <;> rfl
@[simp] theorem State.csHigh_frame (s : State) : (s.csHigh).frame = s.frame := by
  unfold State.csHigh; split <;> rfl
@[simp] theorem State.csHigh_idx (s : State) : (s.csHigh).idx = s.idx := by
  unfold State.csHigh; split <;> rfl
@[simp] theorem State.csHigh_polls (s : State) : (s.csHigh).polls = s.polls := by
  unfold State.csHigh; split <;> rfl
@[simp] theorem State.csHigh_outcome (s : State) : (s.csHigh).outcome = s.outcome := by
  unfold State.csHigh; split <;> rfl
@[simp] theorem State.csHigh_csN (s : State) : (s.csHigh).csN = true := by
  unfold State.csHigh; split <;> simp_all
@[simp] theorem State.csHigh_sending (s : State) : (s.csHigh).bus.sending = s.bus.sending := by
  unfold State.csHigh; split <;> [rfl; (dsimp only; split <;> rfl)]
@[simp] theorem State.csHigh_wire (s : State) : (s.csHigh).bus.wire = s.bus.wire := by
  unfold State.csHigh; split <;> [rfl; (dsimp only; split <;> rfl)]
@[simp] theorem State.csHigh_busEn (s : State) : (s.csHigh).busEn = s.busEn := by
  unfold State.csHigh; split <;> rfl
@[simp] theorem State.csHigh_inInit (s : State) : (s.csHigh).inInit = s.inInit := by
  unfold State.csHigh; split <;> rfl
@[simp] theorem State.csHigh_faults (s : State) : (s.csHigh).faults = s.faults := by
  unfold State.csHigh; split <;> rfl
@[simp] theorem State.csHigh_attempts (s : State) : (s.csHigh).attempts = s.attempts := by
  unfold State.csHigh; split <;> rfl
@[simp] theorem State.csHigh_trace (s : State) : (s.csHigh).trace = s.trace := by
  unfold State.csHigh; split <;> rfl
@[simp] theorem State.csHigh_cfg (s : State) : (s.csHigh).cfg = s.cfg := by
  unfold State.csHigh; split <;> rfl
@[simp] theorem State.csHigh_env (s : State) : (s.csHigh).env = s.env := by
  unfold State.csHigh; split <;> rfl
@[simp] theorem State.csHigh_draws (s : State) : (s.csHigh).draws = s.draws := by
  unfold State.csHigh; split <;> rfl

/-! ## `State.busShift` -/

@[simp] theorem State.busShift_st (s : State) : (s.busShift).st = s.st := by
  unfold State.busShift; split <;> [(split <;> simp); rfl]
@[simp] theorem State.busShift_frame (s : State) : (s.busShift).frame = s.frame := by
  unfold State.busShift; split <;> [(split <;> simp); rfl]
@[simp] theorem State.busShift_idx (s : State) : (s.busShift).idx = s.idx := by
  unfold State.busShift; split <;> [(split <;> simp); rfl]
@[simp] theorem State.busShift_polls (s : State) : (s.busShift).polls = s.polls := by
  unfold State.busShift; split <;> [(split <;> simp); rfl]
@[simp] theorem State.busShift_outcome (s : State) : (s.busShift).outcome = s.outcome := by
  unfold State.busShift; split <;> [(split <;> simp); rfl]
@[simp] theorem State.busShift_csN (s : State) : (s.busShift).csN = s.csN := by
  unfold State.busShift; split <;> [(split <;> simp); rfl]
@[simp] theorem State.busShift_sending (s : State) : (s.busShift).bus.sending = s.bus.sending := by
  unfold State.busShift; split <;> [(split <;> rfl); rfl]
@[simp] theorem State.busShift_busEn (s : State) : (s.busShift).busEn = s.busEn := by
  unfold State.busShift; split <;> [(split <;> simp); rfl]
@[simp] theorem State.busShift_inInit (s : State) : (s.busShift).inInit = s.inInit := by
  unfold State.busShift; split <;> [(split <;> simp); rfl]
@[simp] theorem State.busShift_faults (s : State) : (s.busShift).faults = s.faults := by
  unfold State.busShift; split <;> [(split <;> simp); rfl]
@[simp] theorem State.busShift_attempts (s : State) : (s.busShift).attempts = s.attempts := by
  unfold State.busShift; split <;> [(split <;> simp); rfl]
@[simp] theorem State.busShift_trace (s : State) : (s.busShift).trace = s.trace := by
  unfold State.busShift; split <;> [(split <;> simp); rfl]
@[simp] theorem State.busShift_cfg (s : State) : (s.busShift).cfg = s.cfg := by
  unfold State.busShift; split <;> [(split <;> simp); rfl]
@[simp] theorem State.busShift_env (s : State) : (s.busShift).env = s.env := by
  unfold State.busShift; split <;> [(split <;> simp); rfl]
@[simp] theorem State.busShift_draws (s : State) : (s.busShift).draws = s.draws := by
  unfold State.busShift; split <;> [(split <;> simp); rfl]

/-! ## `State.issueSend` -/

@[simp] theorem State.issueSend_st (s : State) : (s.issueSend).st = s.st := by
  unfold State.issueSend; split <;> simp
@[simp] theorem State.issueSend_frame (s : State) : (s.issueSend).frame = s.frame := by
  unfold State.issueSend; split <;> simp
@[simp] theorem State.issueSend_idx (s : State) : (s.issueSend).idx = s.idx := by
  unfold State.issueSend; split <;> simp
@[simp] theorem State.issueSend_polls (s : State) : (s.issueSend).polls = s.polls := by
  unfold State.issueSend; split <;> simp
@[simp] theorem State.issueSend_outcome (s : State) : (s.issueSend).outcome = s.outcome := by
  unfold State.issueSend; split <;> simp
@[simp] theorem State.issueSend_csN (s : State) : (s.issueSend).csN = s.csN := by
  unfold State.issueSend; split <;> simp
@[simp] theorem State.issueSend_busEn (s : State) : (s.issueSend).busEn = s.busEn := by
  unfold State.issueSend; split <;> simp
@[simp] theorem State.issueSend_inInit (s : State) : (s.issueSend).inInit = s.inInit := by
  unfold State.issueSend; split <;> simp
@[simp] theorem State.issueSend_faults (s : State) : (s.issueSend).faults = s.faults := by
  unfold State.issueSend; split <;> simp
@[simp] theorem State.issueSend_attempts (s : State) : (s.issueSend).attempts = s.attempts := by
  unfold State.issueSend; split <;> simp
@[simp] theorem State.issueSend_dac (s : State) : (s.issueSend).dac = s.dac := by
  unfold State.issueSend; split <;> simp
@[simp] theorem State.issueSend_cfg (s : State) : (s.issueSend).cfg = s.cfg := by
  unfold State.issueSend; split <;> simp
@[simp] theorem State.issueSend_env (s : State) : (s.issueSend).env = s.env := by
  unfold State.issueSend; split <;> simp
@[simp] theorem State.issueSend_draws (s : State) : (s.issueSend).draws = s.draws := by
  unfold State.issueSend; split <;> simp

/-! ## `State.sendTransfer` -/

@[simp] theorem State.sendTransfer_st (s : State) (r : SendResult) : (s.sendTransfer r).st = s.st := by
  cases r <;> simp [State.sendTransfer]
@[simp] theorem State.sendTransfer_frame (s : State) (r : SendResult) : (s.sendTransfer r).frame = s.frame := by
  cases r <;> simp [State.sendTransfer]
@[simp] theorem State.sendTransfer_idx (s : State) (r : SendResult) : (s.sendTransfer r).idx = s.idx := by
  cases r <;> simp [State.sendTransfer]
@[simp] theorem State.sendTransfer_polls (s : State) (r : SendResult) : (s.sendTransfer r).polls = s.polls := by
  cases r <;> simp [State.sendTransfer]
@[simp] theorem State.sendTransfer_outcome (s : State) (r : SendResult) : (s.sendTransfer r).outcome = s.outcome := by
  cases r <;> simp [State.sendTransfer]
@[simp] theorem State.sendTransfer_csN (s : State) (r : SendResult) : (s.sendTransfer r).csN = s.csN := by
  cases r <;> simp [State.sendTransfer]
@[simp] theorem State.sendTransfer_busEn (s : State) (r : SendResult) : (s.sendTransfer r).busEn = s.busEn := by
  cases r <;> simp [State.sendTransfer]
@[simp] theorem State.sendTransfer_inInit (s : State) (r : SendResult) : (s.sendTransfer r).inInit = s.inInit := by
  cases r <;> simp [State.sendTransfer]
@[simp] theorem State.sendTransfer_faults (s : State) (r : SendResult) : (s.sendTransfer r).faults = s.faults := by
  cases r <;> simp [State.sendTransfer]
@[simp] theorem State.sendTransfer_attempts (s : State) (r : SendResult) : (s.sendTransfer r).attempts = s.attempts := by
  cases r <;> simp [State.sendTransfer]
@[simp] theorem State.sendTransfer_trace (s : State) (r : SendResult) : (s.sendTransfer r).trace = s.trace := by
  cases r <;> simp [State.sendTransfer]
@[simp] theorem State.sendTransfer_cfg (s : State) (r : SendResult) : (s.sendTransfer r).cfg = s.cfg := by
  cases r <;> simp [State.sendTransfer]
@[simp] theorem State.sendTransfer_env (s : State) (r : SendResult) : (s.sendTransfer r).env = s.env := by
  cases r <;> simp [State.sendTransfer]
@[simp] theorem State.sendTransfer_draws (s : State) (r : SendResult) : (s.sendTransfer r).draws = s.draws := by
  cases r <;> simp [State.sendTransfer]

/-! ## `State.abandonSend` -/

@[simp] theorem State.abandonSend_st (s : State) : (s.abandonSend).st = s.st := by
  unfold State.abandonSend; split <;> simp
@[simp] theorem State.abandonSend_frame (s : State) : (s.abandonSend).frame = s.frame := by
  unfold State.abandonSend; split <;> simp
@[simp] theorem State.abandonSend_idx (s : State) : (s.abandonSend).idx = s.idx := by
  unfold State.abandonSend; split <;> simp
@[simp] theorem State.abandonSend_polls (s : State) : (s.abandonSend).polls = s.polls := by
  unfold State.abandonSend; split <;> simp
@[simp] theorem State.abandonSend_outcome (s : State) : (s.abandonSend).outcome = s.outcome := by
  unfold State.abandonSend; split <;> simp
@[simp] theorem State.abandonSend_csN (s : State) : (s.abandonSend).csN = s.csN := by
  unfold State.abandonSend; split <;> simp
@[simp] theorem State.abandonSend_busEn (s : State) : (s.abandonSend).busEn =
    if s.bus.sending then s.env.sendBusEn else s.busEn := by
  unfold State.abandonSend; split <;> simp [*]
@[simp] theorem State.abandonSend_inInit (s : State) : (s.abandonSend).inInit = s.inInit := by
  unfold State.abandonSend; split <;> simp
@[simp] theorem State.abandonSend_faults (s : State) : (s.abandonSend).faults = s.faults := by
  unfold State.abandonSend; split <;> simp
@[simp] theorem State.abandonSend_attempts (s : State) : (s.abandonSend).attempts = s.attempts := by
  unfold State.abandonSend; split <;> simp
@[simp] theorem State.abandonSend_trace (s : State) : (s.abandonSend).trace = s.trace := by
  unfold State.abandonSend; split <;> simp
@[simp] theorem State.abandonSend_cfg (s : State) : (s.abandonSend).cfg = s.cfg := by
  unfold State.abandonSend; split <;> simp
@[simp] theorem State.abandonSend_env (s : State) : (s.abandonSend).env = s.env := by
  unfold State.abandonSend; split <;> simp
@[simp] theorem State.abandonSend_draws (s : State) : (s.abandonSend).draws = s.draws := by
  unfold State.abandonSend; split <;> simp

/-! ## `State.applyReset` -/

@[simp] theorem State.applyReset_st (s : State) : (s.applyReset).st = .idle := rfl
@[simp] theorem State.applyReset_frame (s : State) : (s.applyReset).frame = Frame.reset := rfl
@[simp] theorem State.applyReset_idx (s : State) : (s.applyReset).idx = 0 := rfl
@[simp] theorem State.applyReset_polls (s : State) : (s.applyReset).polls = 0 := rfl
@[simp] theorem State.applyReset_outcome (s : State) : (s.applyReset).outcome = .ok := rfl
@[simp] theorem State.applyReset_csN (s : State) : (s.applyReset).csN = s.csN := by
  simp [State.applyReset]
@[simp] theorem State.applyReset_busEn (s : State) : (s.applyReset).busEn =
    if s.bus.sending then s.env.sendBusEn else s.busEn := by
  simp [State.applyReset]
@[simp] theorem State.applyReset_inInit (s : State) : (s.applyReset).inInit = false := rfl
@[simp] theorem State.applyReset_faults (s : State) : (s.applyReset).faults = FaultSet.none := rfl
@[simp] theorem State.applyReset_attempts (s : State) : (s.applyReset).attempts = 0 := rfl
@[simp] theorem State.applyReset_trace (s : State) : (s.applyReset).trace = [] := rfl
@[simp] theorem State.applyReset_cfg (s : State) : (s.applyReset).cfg = s.cfg := by
  simp [State.applyReset]
@[simp] theorem State.applyReset_env (s : State) : (s.applyReset).env = s.env := by
  simp [State.applyReset]
@[simp] theorem State.applyReset_draws (s : State) : (s.applyReset).draws = s.draws := by
  simp [State.applyReset]

/-! ## `State.sendReturn` -/

@[simp] theorem State.sendReturn_st (s : State) (r : SendResult) : (s.sendReturn r).st = .bCsOff := rfl
@[simp] theorem State.sendReturn_frame (s : State) (r : SendResult) : (s.sendReturn r).frame = s.frame := by
  simp [State.sendReturn]
@[simp] theorem State.sendReturn_idx (s : State) (r : SendResult) : (s.sendReturn r).idx = s.idx := by
  simp [State.sendReturn]
@[simp] theorem State.sendReturn_polls (s : State) (r : SendResult) : (s.sendReturn r).polls = s.polls := by
  simp [State.sendReturn]
@[simp] theorem State.sendReturn_outcome (s : State) (r : SendResult) : (s.sendReturn r).outcome = sendOutcome r := rfl
@[simp] theorem State.sendReturn_csN (s : State) (r : SendResult) : (s.sendReturn r).csN = s.csN := by
  simp [State.sendReturn]
@[simp] theorem State.sendReturn_busEn (s : State) (r : SendResult) : (s.sendReturn r).busEn = s.env.sendBusEn := rfl
@[simp] theorem State.sendReturn_inInit (s : State) (r : SendResult) : (s.sendReturn r).inInit = s.inInit := by
  simp [State.sendReturn]
@[simp] theorem State.sendReturn_faults (s : State) (r : SendResult) : (s.sendReturn r).faults = s.faults := by
  simp [State.sendReturn]
@[simp] theorem State.sendReturn_attempts (s : State) (r : SendResult) : (s.sendReturn r).attempts = s.attempts := by
  simp [State.sendReturn]
@[simp] theorem State.sendReturn_trace (s : State) (r : SendResult) : (s.sendReturn r).trace = s.trace := by
  simp [State.sendReturn]
@[simp] theorem State.sendReturn_dac (s : State) (r : SendResult) : (s.sendReturn r).dac = (s.sendTransfer r).dac := rfl
@[simp] theorem State.sendReturn_cfg (s : State) (r : SendResult) : (s.sendReturn r).cfg = s.cfg := by
  simp [State.sendReturn]
@[simp] theorem State.sendReturn_env (s : State) (r : SendResult) : (s.sendReturn r).env = s.env := by
  simp [State.sendReturn]
@[simp] theorem State.sendReturn_draws (s : State) (r : SendResult) : (s.sendReturn r).draws = s.draws := by
  simp [State.sendReturn]

/-! ## `State.platformBoot` -/

@[simp] theorem State.platformBoot_st (s : State) : (s.platformBoot).st = s.st := by
  simp [State.platformBoot]
@[simp] theorem State.platformBoot_frame (s : State) : (s.platformBoot).frame = s.frame := by
  simp [State.platformBoot]
@[simp] theorem State.platformBoot_idx (s : State) : (s.platformBoot).idx = s.idx := by
  simp [State.platformBoot]
@[simp] theorem State.platformBoot_polls (s : State) : (s.platformBoot).polls = s.polls := by
  simp [State.platformBoot]
@[simp] theorem State.platformBoot_outcome (s : State) : (s.platformBoot).outcome = s.outcome := by
  simp [State.platformBoot]
@[simp] theorem State.platformBoot_csN (s : State) : (s.platformBoot).csN = true := by
  simp [State.platformBoot]
@[simp] theorem State.platformBoot_busEn (s : State) : (s.platformBoot).busEn =
    if s.cfg.variant = .polled then false else s.busEn := by
  simp [State.platformBoot]
@[simp] theorem State.platformBoot_bus (s : State) : (s.platformBoot).bus =
    { s.bus with queue := [], shifter := [] } := by
  simp [State.platformBoot]
@[simp] theorem State.platformBoot_inInit (s : State) : (s.platformBoot).inInit = s.inInit := by
  simp [State.platformBoot]
@[simp] theorem State.platformBoot_faults (s : State) : (s.platformBoot).faults = s.faults := by
  simp [State.platformBoot]
@[simp] theorem State.platformBoot_attempts (s : State) : (s.platformBoot).attempts = s.attempts := by
  simp [State.platformBoot]
@[simp] theorem State.platformBoot_trace (s : State) : (s.platformBoot).trace = s.trace := by
  simp [State.platformBoot]
@[simp] theorem State.platformBoot_cfg (s : State) : (s.platformBoot).cfg = s.cfg := by
  simp [State.platformBoot]
@[simp] theorem State.platformBoot_env (s : State) : (s.platformBoot).env = s.env := by
  simp [State.platformBoot]
@[simp] theorem State.platformBoot_draws (s : State) : (s.platformBoot).draws = s.draws := by
  simp [State.platformBoot]

end Sys2Proof.Machine
end

