-- ==== Sys2Proof/Laws/Ops.lean ====
section
/-! SUPPORT. Laws/Ops: what each shared operation can do, said once: the presentation of a request, the guard of an interface
operation, a wait's answers, the step. -/

namespace Sys2Proof.Machine

/-! ## Presenting and issuing -/

/-- Presenting a request always gives a next state: it is ignored, accepted, or reentrant (R121, R123). -/
theorem present_cases (s a : State) :
    (s.faulted = true ∧ s.present a = .next s) ∨
    (s.faulted = false ∧ s.st = .idle ∧ s.present a = .next a) ∨
    (s.faulted = false ∧ s.st ≠ .idle ∧ s.present a = .next (s.raiseFault .reentrantRequest)) := by
  unfold State.present
  by_cases hf : s.faulted = true
  · simp [hf]
  · by_cases hs : s.st = .idle <;> simp [hf, hs]

theorem present_idle {s : State} (a : State) (hf : s.faulted = false) (hs : s.st = .idle) :
    s.present a = .next a := by
  simp [State.present, hf, hs]

theorem present_reentrant {s : State} (a : State) (hf : s.faulted = false) (hs : s.st ≠ .idle) :
    s.present a = .next (s.raiseFault .reentrantRequest) := by
  simp [State.present, hf, hs]

theorem present_faulted {s : State} (a : State) (hf : s.faulted = true) : s.present a = .next s := by
  simp [State.present, hf]

/-- An interface operation gives a next state exactly where a rule issues it and no fault is recorded. -/
theorem issue_eq_next_iff (s : State) (p : Prop) [Decidable p] (a t : State) :
    s.issue p a = .next t ↔ s.faulted = false ∧ p ∧ a = t := by
  unfold State.issue
  by_cases hf : s.faulted = true
  · simp [hf]
  · by_cases hp : p <;> simp [hf, hp]

theorem issue_here {s : State} {p : Prop} [Decidable p] (a : State) (hf : s.faulted = false) (hp : p) :
    s.issue p a = .next a :=
  (issue_eq_next_iff s p a a).2 ⟨hf, hp, rfl⟩

/-! ## Waits -/

/-- A not-ready answer (R80): the wait goes on, uncounted or counted, or times out on the n-th. -/
theorem notReady_cases (s : State) (w : St) :
    (s.cfg.waitBound = .unbounded ∧ s.notReady w = { s with st := w }) ∨
    (∃ n, s.cfg.waitBound = .atMost n ∧ s.polls + 1 = n ∧
      s.notReady w = { s with polls := s.polls + 1, outcome := .timeout, st := .dis }) ∨
    (∃ n, s.cfg.waitBound = .atMost n ∧ s.polls + 1 ≠ n ∧
      s.notReady w = { s with polls := s.polls + 1, st := w }) := by
  unfold State.notReady
  cases hb : s.cfg.waitBound with
  | unbounded => exact .inl ⟨rfl, rfl⟩
  | atMost n =>
    by_cases hp : s.polls + 1 = n
    · exact .inr (.inl ⟨n, rfl, hp, by simp [hp]⟩)
    · exact .inr (.inr ⟨n, rfl, hp, by simp [hp]⟩)

/-! ## The step -/

theorem step_fetched {s : State} {i : Instr} (h : s.fetch = some i) : step s = drawNext (exec i s) := by
  simp [step, h]

theorem step_not_fetched {s : State} (h : s.fetch = none) : step s = .next s.noFetch.draw := by
  simp [step, h]

theorem drawNext_eq_next_iff (o : Host.Outcome State Fault Refusal) (t : State) :
    drawNext o = .next t ↔ ∃ u, o = .next u ∧ t = u.draw := by
  cases o <;> simp [drawNext, eq_comm]

/-- Every step that gives a next state is one of these: a fetched instruction's, or one with no row, its inputs redrawn. -/
theorem step_next_cases {s t : State} (h : step s = .next t) :
    (∃ i u, s.fetch = some i ∧ exec i s = .next u ∧ t = u.draw) ∨ (s.fetch = none ∧ t = s.noFetch.draw) := by
  cases hf : s.fetch with
  | none =>
    rw [step_not_fetched hf] at h
    exact .inr ⟨rfl, (Host.Outcome.next.inj h).symm⟩
  | some i =>
    rw [step_fetched hf, drawNext_eq_next_iff] at h
    obtain ⟨u, hu, rfl⟩ := h
    exact .inl ⟨i, u, rfl, hu, rfl⟩

/-! ## Bits on the wire -/

@[simp] theorem wireBits_length {n : Nat} (v : BitVec n) : (wireBits v).length = n := by
  simp [wireBits]

theorem wireBitsOf_append (as bs : List Byte) : wireBitsOf (as ++ bs) = wireBitsOf as ++ wireBitsOf bs := by
  simp [wireBitsOf]

/-- What a mask keeps is a part of the bits, in order (R114). -/
theorem keepBits_sublist : ∀ mask bits : List Bool, (keepBits mask bits).Sublist bits
  | [], _ => by simp [keepBits]
  | true :: _, [] => by simp [keepBits]
  | false :: _, [] => by simp [keepBits]
  | true :: ks, b :: bs => by
    simp only [keepBits]
    exact (keepBits_sublist ks bs).cons_cons b
  | false :: ks, b :: bs => by
    simp only [keepBits]
    exact (keepBits_sublist ks bs).cons b

/-- Whole bytes of bits are the bits of the bytes they spell. -/
theorem wireBitsOf_bytesOfWire : ∀ bits : List Bool, bits.length % 8 = 0 → wireBitsOf (bytesOfWire bits) = bits
  | [], _ => rfl
  | b7 :: b6 :: b5 :: b4 :: b3 :: b2 :: b1 :: b0 :: rest, h => by
    have hrest : rest.length % 8 = 0 := by simp only [List.length_cons] at h; omega
    have hbyte : ∀ c7 c6 c5 c4 c3 c2 c1 c0 : Bool,
        wireBits (BitVec.ofBoolListBE [c7, c6, c5, c4, c3, c2, c1, c0] : Byte) = [c7, c6, c5, c4, c3, c2, c1, c0] := by
      decide
    have ih := wireBitsOf_bytesOfWire rest hrest
    simp only [wireBitsOf, bytesOfWire, List.flatMap_cons] at ih ⊢
    rw [ih, hbyte]
    rfl
  | [_], h => by simp at h
  | [_, _], h => by simp at h
  | [_, _, _], h => by simp at h
  | [_, _, _, _], h => by simp at h
  | [_, _, _, _, _], h => by simp at h
  | [_, _, _, _, _, _], h => by simp at h
  | [_, _, _, _, _, _, _], h => by simp at h

/-- However the bits are held, they are what is pending, and `sh` holds at most one byte (R109). -/
theorem holdBits_spec (b : Bus) (bits : List Bool) (started : Bool) :
    (b.holdBits bits started).pending = bits ∧ (b.holdBits bits started).shifter.length ≤ 8 := by
  have hk : ∀ k, (bits.length - k) % 8 = 0 →
      bits.take k ++ wireBitsOf (bytesOfWire (bits.drop k)) = bits := by
    intro k h
    rw [wireBitsOf_bytesOfWire _ (by simpa using h), List.take_append_drop]
  unfold Bus.holdBits Bus.pending
  simp only
  split
  · exact ⟨hk _ (by omega), by simp⟩
  · exact ⟨hk _ (by omega), by simp; omega⟩

@[simp] theorem holdBits_wire (b : Bus) (bits : List Bool) (started : Bool) : (b.holdBits bits started).wire = b.wire := rfl
@[simp] theorem holdBits_sending (b : Bus) (bits : List Bool) (started : Bool) :
    (b.holdBits bits started).sending = b.sending := rfl
@[simp] theorem lose_wire (b : Bus) (keep : List Bool) (started : Bool) : (b.lose keep started).wire = b.wire := rfl
@[simp] theorem lose_sending (b : Bus) (keep : List Bool) (started : Bool) : (b.lose keep started).sending = b.sending := rfl

theorem lose_pending_sublist (b : Bus) (keep : List Bool) (started : Bool) :
    (b.lose keep started).pending.Sublist b.pending := by
  rw [Bus.lose, (holdBits_spec _ _ _).1]
  exact keepBits_sublist keep b.pending

theorem lose_shifter_le (b : Bus) (keep : List Bool) (started : Bool) : (b.lose keep started).shifter.length ≤ 8 :=
  (holdBits_spec _ _ _).2

/-- When the platform may act (R134–R136). -/
theorem beforeFirstRequest_iff (s : State) :
    s.beforeFirstRequest = true ↔ s.st = .idle ∧ s.faulted = false ∧ s.trace = [] := by
  simp [State.beforeFirstRequest, and_assoc]

theorem drained_iff (b : Bus) : b.drained = true ↔ b.queue = [] ∧ b.shifter = [] := by
  simp [Bus.drained, List.isEmpty_iff]

theorem drained_pending {b : Bus} (h : b.drained = true) : b.pending = [] := by
  obtain ⟨hq, hs⟩ := (drained_iff b).1 h
  simp [Bus.pending, hq, hs, wireBitsOf]

end Sys2Proof.Machine
end

