-- ==== Sys2Proof/Laws/PerInstr.lean ====
section
/-! SUPPORT. Laws/PerInstr: statements about every instruction as syntax, one lemma a constructor. -/

/-! `RowMatch`: the word of an instruction is a word of its row of opcode_table.json: under the row's mask it is the row's
match. -/

namespace Sys2Proof.Laws.RowMatch

/-- The word's bits as opcode_table.json numbers them, a FRAME24 word's in the low 24. -/
def codeBits : CodeWord → Word
  | .req32 w   => w
  | .frame24 f => f.setWidth 32
  | .evt32 w   => w

/-- The row's mask and match (opcode_table.json). -/
def row : Instr → Word × Word
  | .transmit _ _    => (0xFF000000, 0x01000000)
  | .init            => (0xFFFFFFFF, 0x02000000)
  | .illegalRequest _ => (0x00000000, 0x00000000)
  | .wrbufA _        => (0xFF0000, 0x000000)
  | .wrbufB _        => (0xFF0000, 0x040000)
  | .wrldA _         => (0xFF0000, 0x100000)
  | .wrldB _         => (0xFF0000, 0x240000)
  | .wrbufBWrldA _   => (0xFF0000, 0x140000)
  | .wrldAWrldB _    => (0xFF0000, 0x340000)
  | .frameOther _ _  => (0x000000, 0x000000)
  | .csAssert        => (0xFFFFFFFF, 0x01000000)
  | .csDeassert      => (0xFFFFFFFF, 0x02000000)
  | .busEnable       => (0xFFFFFFFF, 0x03000000)
  | .busDisable      => (0xFFFFFFFF, 0x04000000)
  | .pollTxe _       => (0xFF000000, 0x05000000)
  | .pollFtlvl _     => (0xFF000000, 0x06000000)
  | .pollBsy _       => (0xFF000000, 0x07000000)
  | .pushByte _      => (0xFF000000, 0x08000000)
  | .pushHalf _ _    => (0xFF000000, 0x09000000)
  | .send3 _         => (0xFF000000, 0x0A000000)
  | .delay _         => (0xFF000000, 0x0B000000)
  | .result _        => (0xFF000000, 0x0C000000)

/-- The instruction's word, under its row's mask, is its row's match. -/
def Statement (i : Instr) : Prop := codeBits (encode i) &&& (row i).1 = (row i).2

/-- Under a mask of the top 8 of 32 bits only the top byte stays. -/
theorem top_byte_masked (k : Byte) (p : FrameWord) : (k ++ p) &&& 0xFF000000#32 = k ++ 0#24 := by
  have low : ∀ j : Fin 24, (0xFF000000#32).getLsbD j.val = false := by decide
  have high : ∀ j : Fin 8, (0xFF000000#32).getLsbD (j.val + 24) = true := by decide
  apply BitVec.eq_of_getLsbD_eq
  intro i hi
  simp only [BitVec.getLsbD_and, BitVec.getLsbD_append]
  by_cases h24 : i < 24
  · simp [h24, low ⟨i, h24⟩]
  · have := high ⟨i - 24, by omega⟩
    rw [show i - 24 + 24 = i by omega] at this
    simp [h24, this]

/-- Under a mask of the top 8 of 24 bits only the command byte stays. -/
theorem command_masked (c : Byte) (k : Code) :
    (c ++ k).setWidth 32 &&& 0x00FF0000#32 = (c ++ 0#16).setWidth 32 := by
  have low : ∀ j : Fin 16, (0x00FF0000#32).getLsbD j.val = false := by decide
  have high : ∀ j : Fin 8, (0x00FF0000#32).getLsbD (j.val + 16) = true := by decide
  apply BitVec.eq_of_getLsbD_eq
  intro i hi
  simp only [BitVec.getLsbD_and, BitVec.getLsbD_setWidth, BitVec.getLsbD_append]
  by_cases h16 : i < 16
  · simp [h16, low ⟨i, h16⟩]
  · by_cases h24 : i < 24
    · have := high ⟨i - 16, by omega⟩
      rw [show i - 16 + 16 = i by omega] at this
      simp [h16, this]
    · simp [h16, BitVec.getLsbD_of_ge c (i - 16) (by omega)]

theorem eventWord_masked (k : Byte) (p : FrameWord) : eventWord k p &&& 0xFF000000#32 = k ++ 0#24 :=
  top_byte_masked k p

theorem transmit (cmd : Byte) (code : Code) : Statement (.transmit cmd code) := by
  have h : transmitWord cmd code = 0x01#8 ++ (cmd ++ code) := by
    apply BitVec.eq_of_getLsbD_eq
    intro i hi
    simp only [transmitWord, BitVec.getLsbD_append]
    by_cases h16 : i < 16
    · simp [h16, show i < 24 by omega]
    · by_cases h24 : i < 24
      · simp [h16, h24, show i - 16 < 8 by omega]
      · simp [h16, h24, show ¬ i - 16 < 8 by omega, show i - 16 - 8 = i - 24 by omega]
  exact (congrArg (· &&& 0xFF000000#32) h).trans (top_byte_masked 0x01#8 (cmd ++ code))

theorem init : Statement .init := by
  unfold Statement
  decide

theorem illegalRequest (w : Word) : Statement (.illegalRequest w) := by
  simp [Statement, row]

theorem wrbufA (code : Code) : Statement (.wrbufA code) := command_masked 0x00 code

theorem wrbufB (code : Code) : Statement (.wrbufB code) := command_masked 0x04 code

theorem wrldA (code : Code) : Statement (.wrldA code) := command_masked 0x10 code

theorem wrldB (code : Code) : Statement (.wrldB code) := command_masked 0x24 code

theorem wrbufBWrldA (code : Code) : Statement (.wrbufBWrldA code) := command_masked 0x14 code

theorem wrldAWrldB (code : Code) : Statement (.wrldAWrldB code) := command_masked 0x34 code

theorem frameOther (cmd : Byte) (code : Code) : Statement (.frameOther cmd code) := by
  simp [Statement, row]

theorem csAssert : Statement .csAssert := by
  unfold Statement
  decide

theorem csDeassert : Statement .csDeassert := by
  unfold Statement
  decide

theorem busEnable : Statement .busEnable := by
  unfold Statement
  decide

theorem busDisable : Statement .busDisable := by
  unfold Statement
  decide

theorem pollTxe (v : Bool) : Statement (.pollTxe v) := eventWord_masked 0x05 _

theorem pollFtlvl (n : FrameWord) : Statement (.pollFtlvl n) := eventWord_masked 0x06 n

theorem pollBsy (b : Bool) : Statement (.pollBsy b) := eventWord_masked 0x07 _

theorem pushByte (b : Byte) : Statement (.pushByte b) := eventWord_masked 0x08 _

theorem pushHalf (b0 b1 : Byte) : Statement (.pushHalf b0 b1) := eventWord_masked 0x09 _

theorem send3 (f : FrameWord) : Statement (.send3 f) := eventWord_masked 0x0A f

theorem delay (t : FrameWord) : Statement (.delay t) := eventWord_masked 0x0B t

theorem result (r : Result) : Statement (.result r) := eventWord_masked 0x0C _

end Sys2Proof.Laws.RowMatch
end

