-- ==== Sys2Proof/Laws/Step.lean ====
section
/-! SUPPORT. Laws/Step: everything a step can do, said once. For each agent's turn and each state of the block, the equation
of the step; then `StepTo`, the cases of a step that gives a next state, from which every invariant is derived. -/

namespace Sys2Proof.Machine

/-! ## Turns that run no instruction -/

theorem step_reset {s : State} (hm : s.env.move = .reset) : step s = .next s.applyReset.draw := by
  rw [step_not_fetched (by simp [State.fetch, hm])]; simp [State.noFetch, hm]

theorem step_shift {s : State} (hm : s.env.move = .shift) : step s = .next s.busShift.draw := by
  rw [step_not_fetched (by simp [State.fetch, hm])]; simp [State.noFetch, hm]

theorem step_configure {s : State} (hm : s.env.move = .configure) :
    step s = .next (if s.beforeFirstRequest then s.platformBoot else s).draw := by
  rw [step_not_fetched (by simp [State.fetch, hm])]; simp [State.noFetch, hm]

theorem step_block_faulted {s : State} (hm : s.env.move = .block) (hf : s.faulted = true) :
    step s = .next s.draw := by
  rw [step_not_fetched (by simp [State.fetch, hm, hf])]; simp [State.noFetch, hm, hf]

/-! ## A request presented -/

theorem step_request {s : State} {r : Request} (hm : s.env.move = .request r) :
    step s = drawNext (exec (decodeRequest r) s) :=
  step_fetched (by simp [State.fetch, hm])

/-- A frame's row, run as a request, is the TRANSMIT of its command byte and code (R66). -/
theorem exec_decodeFrame (cmd : Byte) (code : Code) (s : State) :
    exec (decodeFrame (cmd ++ code)) s = s.present (s.acceptTransmit cmd code) := by
  have hc : frameWordCmd (cmd ++ code) = cmd := by
    apply BitVec.eq_of_getLsbD_eq
    intro i hi
    simp only [frameWordCmd, BitVec.getLsbD_extractLsb', BitVec.getLsbD_append]
    simp [hi]
  have hk : frameWordCode (cmd ++ code) = code := by
    apply BitVec.eq_of_getLsbD_eq
    intro i hi
    simp only [frameWordCode, BitVec.getLsbD_extractLsb', BitVec.getLsbD_append]
    simp [hi]
  simp only [decodeFrame, hc, hk]
  split_ifs <;> subst_vars <;> rfl

/-- A request runs as its word does, whichever row it runs under: TRANSMIT's acceptance, INIT's, or the ILLEGAL fault. -/
theorem exec_request_cases (r : Request) (s : State) :
    (∃ cmd code, decodeReq r.word = .transmit cmd code ∧
      exec (decodeRequest r) s = s.present (s.acceptTransmit cmd code)) ∨
    (decodeReq r.word = .init ∧ decodeRequest r = .init ∧ exec (decodeRequest r) s = s.present s.acceptInit) ∨
    (∃ w, decodeReq r.word = .illegalRequest w ∧ decodeRequest r = .illegalRequest w ∧
      exec (decodeRequest r) s = s.present (s.raiseFault .illegalRequest)) := by
  have hw : (∃ cmd code, decodeReq r.word = .transmit cmd code) ∨ decodeReq r.word = .init ∨
      ∃ w, decodeReq r.word = .illegalRequest w := by
    unfold decodeReq
    split_ifs
    · exact .inl ⟨_, _, rfl⟩
    · exact .inr (.inl rfl)
    · exact .inr (.inr ⟨_, rfl⟩)
  unfold decodeRequest
  rcases hw with ⟨cmd, code, h⟩ | h | ⟨w, h⟩
  · left
    refine ⟨cmd, code, h, ?_⟩
    rw [h]
    cases r.asFrame with
    | true => exact exec_decodeFrame cmd code s
    | false => rfl
  · rw [h]
    cases r.asFrame <;> exact .inr (.inl ⟨rfl, rfl, rfl⟩)
  · rw [h]
    cases r.asFrame <;> exact .inr (.inr ⟨w, rfl, rfl, rfl⟩)

/-! ## The block's turn, state by state -/

section
variable {s : State}

theorem step_ownOp {i : Instr} (hm : s.env.move = .block) (hf : s.faulted = false) (ho : s.ownOp = some i) :
    step s = drawNext (exec i s) :=
  step_fetched (by simp [State.fetch, hm, hf, ho])

theorem step_silent (hm : s.env.move = .block) (hf : s.faulted = false) (ho : s.ownOp = none) :
    step s = .next s.silentStep.draw := by
  rw [step_not_fetched (by simp [State.fetch, hm, hf, ho])]; simp [State.noFetch, hm, hf]

theorem step_idle (hm : s.env.move = .block) (hf : s.faulted = false) (hs : s.st = .idle) :
    step s = .next s.draw := by
  rw [step_silent hm hf (by simp [State.ownOp, hs])]; simp [State.silentStep, hs]

theorem step_csOn (hm : s.env.move = .block) (hf : s.faulted = false) (hs : s.st = .csOn) :
    step s = .next { (s.csLow.emit .csAssert) with st := .en }.draw := by
  rw [step_ownOp hm hf (i := .csAssert) (by simp only [State.ownOp, hs])]
  simp [exec, execCsAssert, State.issue, hf, hs, drawNext]

theorem step_en (hm : s.env.move = .block) (hf : s.faulted = false) (hs : s.st = .en) :
    step s = .next { (s.enableBus.emit .busEnable) with polls := 0, st := .txWait }.draw := by
  rw [step_ownOp hm hf (i := .busEnable) (by simp only [State.ownOp, hs])]
  simp [exec, execBusEnable, State.issue, hf, hs, drawNext]

theorem step_txWait (hm : s.env.move = .block) (hf : s.faulted = false) (hs : s.st = .txWait) :
    step s = .next ((s.emit (.pollTxe s.env.txe)).afterTxe s.env.txe).draw := by
  rw [step_ownOp hm hf (i := .pollTxe s.env.txe) (by simp only [State.ownOp, hs])]
  simp [exec, execPollTxe, State.issue, hf, hs, drawNext]

/-- PUSH with a byte left (R74): the pair, or the single byte. -/
theorem step_push (hm : s.env.move = .block) (hf : s.faulted = false) (hs : s.st = .push) (hi : s.idx ≠ 3) :
    (∃ x y, s.pushesPair = true ∧ s.frame.byte? s.idx.val = some x ∧ s.frame.byte? (s.idx.val + 1) = some y ∧
      s.pushOperand = .pushHalf x y ∧
      step s = .next (((s.pushBytes [x, y]).emit (.pushHalf x y)).afterPush 2).draw) ∨
    (∃ x, s.pushesPair = false ∧ s.frame.byte? s.idx.val = some x ∧ s.pushOperand = .pushByte x ∧
      step s = .next (((s.pushBytes [x]).emit (.pushByte x)).afterPush 1).draw) := by
  have hstep : step s = drawNext (exec s.pushOperand s) := step_ownOp hm hf (by simp only [State.ownOp, hs])
  cases hp : s.pushesPair with
  | true =>
    have hr : 1 < 3 - s.idx.val := by
      simp only [State.pushesPair, Bool.and_eq_true, decide_eq_true_eq] at hp; exact hp.2
    obtain ⟨x, hx⟩ : ∃ x, s.frame.byte? s.idx.val = some x := by
      match h : s.idx with
      | 0 => exact ⟨_, rfl⟩
      | 1 => exact ⟨_, rfl⟩
      | 2 => simp [h] at hr
      | 3 => exact absurd h hi
    obtain ⟨y, hy⟩ : ∃ y, s.frame.byte? (s.idx.val + 1) = some y := by
      match h : s.idx with
      | 0 => exact ⟨_, rfl⟩
      | 1 => exact ⟨_, rfl⟩
      | 2 => simp [h] at hr
      | 3 => exact absurd h hi
    have ho : s.pushOperand = .pushHalf x y := by simp [State.pushOperand, hx, hy, hp]
    refine .inl ⟨x, y, rfl, hx, hy, ho, ?_⟩
    rw [hstep, ho]
    simp [exec, execPushHalf, State.issue, hf, hs, hp, hx, hy, drawNext]
  | false =>
    obtain ⟨x, hx⟩ : ∃ x, s.frame.byte? s.idx.val = some x := by
      match h : s.idx with
      | 0 => exact ⟨_, rfl⟩
      | 1 => exact ⟨_, rfl⟩
      | 2 => exact ⟨_, rfl⟩
      | 3 => exact absurd h hi
    have ho : s.pushOperand = .pushByte x := by
      cases hy : s.frame.byte? (s.idx.val + 1) <;> simp [State.pushOperand, hx, hy, hp]
    refine .inr ⟨x, rfl, hx, ho, ?_⟩
    rw [hstep, ho]
    simp [exec, execPushByte, State.issue, hf, hs, hp, hx, hi, drawNext]

/-- PUSH with no byte left: the fault `frameIndex`. -/
theorem step_push_past (hm : s.env.move = .block) (hf : s.faulted = false) (hs : s.st = .push) (hi : s.idx = 3) :
    step s = .fault .frameIndex := by
  rw [step_ownOp hm hf (i := s.pushOperand) (by simp only [State.ownOp, hs])]
  simp [State.pushOperand, hi, Frame.byte?, exec, execPushByte, hs, hf, drawNext]

/-- The answer the block reads has `FTLVL_WIDTH` bits. -/
theorem ftlvlAnswer_fits (s : State) : s.cfg.ftlvlFits s.ftlvlAnswer = true := by
  simp only [Config.ftlvlFits, State.ftlvlAnswer, decide_eq_true_eq, BitVec.toNat_ofNat]
  exact lt_of_le_of_lt (Nat.mod_le _ _) (Nat.mod_lt _ (by positivity))

theorem step_drainFifo (hm : s.env.move = .block) (hf : s.faulted = false) (hs : s.st = .drainFifo) :
    step s = .next ((s.emit (.pollFtlvl s.ftlvlAnswer)).afterFtlvl s.ftlvlAnswer).draw := by
  rw [step_ownOp hm hf (i := .pollFtlvl s.ftlvlAnswer) (by simp only [State.ownOp, hs])]
  simp [exec, execPollFtlvl, ftlvlAnswer_fits, State.issue, hf, hs, drawNext]

theorem step_drainBsy (hm : s.env.move = .block) (hf : s.faulted = false) (hs : s.st = .drainBsy) :
    step s = .next ((s.emit (.pollBsy s.env.bsy)).afterBsy s.env.bsy).draw := by
  rw [step_ownOp hm hf (i := .pollBsy s.env.bsy) (by simp only [State.ownOp, hs])]
  simp [exec, execPollBsy, State.issue, hf, hs, drawNext]

theorem step_dis (hm : s.env.move = .block) (hf : s.faulted = false) (hs : s.st = .dis) :
    step s = .next { (s.disableBus.emit .busDisable) with st := .csOff }.draw := by
  rw [step_ownOp hm hf (i := .busDisable) (by simp only [State.ownOp, hs])]
  simp [exec, execBusDisable, State.issue, hf, hs, drawNext]

theorem step_csOff (hm : s.env.move = .block) (hf : s.faulted = false) (hs : s.st = .csOff ∨ s.st = .bCsOff) :
    step s = .next { (s.csHigh.emit .csDeassert) with st := .done }.draw := by
  rw [step_ownOp hm hf (i := .csDeassert) (by rcases hs with hs | hs <;> simp only [State.ownOp, hs])]
  simp [exec, execCsDeassert, State.issue, hf, hs, drawNext]

theorem step_bCsOn (hm : s.env.move = .block) (hf : s.faulted = false) (hs : s.st = .bCsOn) :
    step s = .next { (s.csLow.emit .csAssert) with st := .bSend }.draw := by
  rw [step_ownOp hm hf (i := .csAssert) (by simp only [State.ownOp, hs])]
  simp [exec, execCsAssert, State.issue, hf, hs, drawNext]

theorem step_bSend (hm : s.env.move = .block) (hf : s.faulted = false) (hs : s.st = .bSend) :
    (s.env.send = none ∧ step s = .next s.issueSend.draw) ∨
    (∃ r, s.env.send = some r ∧ step s = .next (s.issueSend.sendReturn r).draw) := by
  rw [step_ownOp hm hf (i := .send3 s.frame.word) (by simp only [State.ownOp, hs])]
  cases hr : s.env.send with
  | none => exact .inl ⟨rfl, by simp [exec, execSend3, State.issue, hf, hs, hr, drawNext]⟩
  | some r => exact .inr ⟨r, rfl, by simp [exec, execSend3, State.issue, hf, hs, hr, drawNext]⟩

theorem step_done_retries (hm : s.env.move = .block) (hf : s.faulted = false) (hs : s.st = .done)
    (hr : s.retries = true) : step s = .next { s with st := .iDelay }.draw := by
  rw [step_silent hm hf (by simp [State.ownOp, hs, hr])]; simp [State.silentStep, hs, hr]

theorem step_done_reports (hm : s.env.move = .block) (hf : s.faulted = false) (hs : s.st = .done)
    (hr : s.retries = false) :
    step s = .next { (s.emit (.result s.outcome)) with inInit := false, st := .idle }.draw := by
  rw [step_ownOp hm hf (i := .result s.outcome) (by simp [State.ownOp, hs, hr])]
  simp [exec, execResult, State.issue, hf, hs, hr, drawNext]

theorem step_iTx (hm : s.env.move = .block) (hf : s.faulted = false) (hs : s.st = .iTx) :
    step s = .next s.initAttempt.draw := by
  rw [step_silent hm hf (by simp [State.ownOp, hs])]; simp [State.silentStep, hs]

theorem step_iDelay (hm : s.env.move = .block) (hf : s.faulted = false) (hs : s.st = .iDelay) :
    step s = .next { (s.emit (.delay s.cfg.retryDelay)) with st := .iTx }.draw := by
  rw [step_ownOp hm hf (i := .delay s.cfg.retryDelay) (by simp only [State.ownOp, hs])]
  simp [exec, execDelay, State.issue, hf, hs, drawNext]

end

/-! ## All of it -/

/-- What a step that gives a next state did, before the next inputs are drawn. -/
inductive StepTo (s : State) : State → Prop
  | reset (hm : s.env.move = .reset) : StepTo s s.applyReset
  | shift (hm : s.env.move = .shift) : StepTo s s.busShift
  | boot (hm : s.env.move = .configure) (hs : s.st = .idle) (hf : s.faulted = false) (ht : s.trace = []) :
      StepTo s s.platformBoot
  | noBoot (hm : s.env.move = .configure) (hb : s.beforeFirstRequest = false) : StepTo s s
  | quiescent (hm : s.env.move = .block ∨ ∃ r, s.env.move = .request r) (hf : s.faulted = true) : StepTo s s
  | transmit (r : Request) (hm : s.env.move = .request r) (hf : s.faulted = false) (hs : s.st = .idle) (cmd : Byte)
      (code : Code) (hd : decodeReq r.word = .transmit cmd code) : StepTo s (s.acceptTransmit cmd code)
  | init (r : Request) (hm : s.env.move = .request r) (hd : decodeReq r.word = .init) (hf : s.faulted = false)
      (hs : s.st = .idle) : StepTo s s.acceptInit
  | illegal (r : Request) (hm : s.env.move = .request r) (hf : s.faulted = false) (hs : s.st = .idle) :
      StepTo s (s.raiseFault .illegalRequest)
  | reentrant (r : Request) (hm : s.env.move = .request r) (hf : s.faulted = false) (hs : s.st ≠ .idle) :
      StepTo s (s.raiseFault .reentrantRequest)
  | hold (hm : s.env.move = .block) (hf : s.faulted = false) (hs : s.st = .idle) : StepTo s s
  | csOn (hm : s.env.move = .block) (hf : s.faulted = false) (hs : s.st = .csOn) :
      StepTo s { (s.csLow.emit .csAssert) with st := .en }
  | en (hm : s.env.move = .block) (hf : s.faulted = false) (hs : s.st = .en) :
      StepTo s { (s.enableBus.emit .busEnable) with polls := 0, st := .txWait }
  | txWait (hm : s.env.move = .block) (hf : s.faulted = false) (hs : s.st = .txWait) :
      StepTo s ((s.emit (.pollTxe s.env.txe)).afterTxe s.env.txe)
  | pushHalf (hm : s.env.move = .block) (hf : s.faulted = false) (hs : s.st = .push) (x y : Byte)
      (hp : s.pushesPair = true) (hx : s.frame.byte? s.idx.val = some x)
      (hy : s.frame.byte? (s.idx.val + 1) = some y) :
      StepTo s (((s.pushBytes [x, y]).emit (.pushHalf x y)).afterPush 2)
  | pushByte (hm : s.env.move = .block) (hf : s.faulted = false) (hs : s.st = .push) (x : Byte)
      (hp : s.pushesPair = false) (hx : s.frame.byte? s.idx.val = some x) :
      StepTo s (((s.pushBytes [x]).emit (.pushByte x)).afterPush 1)
  | drainFifo (hm : s.env.move = .block) (hf : s.faulted = false) (hs : s.st = .drainFifo) :
      StepTo s ((s.emit (.pollFtlvl s.ftlvlAnswer)).afterFtlvl s.ftlvlAnswer)
  | drainBsy (hm : s.env.move = .block) (hf : s.faulted = false) (hs : s.st = .drainBsy) :
      StepTo s ((s.emit (.pollBsy s.env.bsy)).afterBsy s.env.bsy)
  | dis (hm : s.env.move = .block) (hf : s.faulted = false) (hs : s.st = .dis) :
      StepTo s { (s.disableBus.emit .busDisable) with st := .csOff }
  | csOff (hm : s.env.move = .block) (hf : s.faulted = false) (hs : s.st = .csOff ∨ s.st = .bCsOff) :
      StepTo s { (s.csHigh.emit .csDeassert) with st := .done }
  | bCsOn (hm : s.env.move = .block) (hf : s.faulted = false) (hs : s.st = .bCsOn) :
      StepTo s { (s.csLow.emit .csAssert) with st := .bSend }
  | sendHeld (hm : s.env.move = .block) (hf : s.faulted = false) (hs : s.st = .bSend) (hr : s.env.send = none) :
      StepTo s s.issueSend
  | sendReturned (hm : s.env.move = .block) (hf : s.faulted = false) (hs : s.st = .bSend) (r : SendResult)
      (hr : s.env.send = some r) : StepTo s (s.issueSend.sendReturn r)
  | retry (hm : s.env.move = .block) (hf : s.faulted = false) (hs : s.st = .done) (hr : s.retries = true) :
      StepTo s { s with st := .iDelay }
  | report (hm : s.env.move = .block) (hf : s.faulted = false) (hs : s.st = .done) (hr : s.retries = false) :
      StepTo s { (s.emit (.result s.outcome)) with inInit := false, st := .idle }
  | attempt (hm : s.env.move = .block) (hf : s.faulted = false) (hs : s.st = .iTx) : StepTo s s.initAttempt
  | delay (hm : s.env.move = .block) (hf : s.faulted = false) (hs : s.st = .iDelay) :
      StepTo s { (s.emit (.delay s.cfg.retryDelay)) with st := .iTx }

/-- Every step gives one of these next states, its inputs redrawn, except a push past the frame. -/
theorem step_cases (s : State) :
    (∃ u, StepTo s u ∧ step s = .next u.draw) ∨
    (s.env.move = .block ∧ s.faulted = false ∧ s.st = .push ∧ s.idx = 3 ∧ step s = .fault .frameIndex) := by
  cases hm : s.env.move with
  | reset => exact .inl ⟨_, .reset hm, step_reset hm⟩
  | shift => exact .inl ⟨_, .shift hm, step_shift hm⟩
  | configure =>
    cases hb : s.beforeFirstRequest with
    | true =>
      obtain ⟨hs, hf, ht⟩ := (beforeFirstRequest_iff s).1 hb
      exact .inl ⟨_, .boot hm hs hf ht, by rw [step_configure hm, if_pos hb]⟩
    | false => exact .inl ⟨_, .noBoot hm hb, by rw [step_configure hm, hb]; rfl⟩
  | request r =>
    left
    rw [step_request hm]
    rcases exec_request_cases r s with ⟨cmd, code, hd, h⟩ | ⟨hd, -, h⟩ | ⟨w, -, -, h⟩ <;> rw [h]
    · rcases present_cases s (s.acceptTransmit cmd code) with ⟨hf, h⟩ | ⟨hf, hs, h⟩ | ⟨hf, hs, h⟩
      · exact ⟨_, .quiescent (.inr ⟨r, hm⟩) hf, by rw [h]; rfl⟩
      · exact ⟨_, .transmit r hm hf hs cmd code hd, by rw [h]; rfl⟩
      · exact ⟨_, .reentrant r hm hf hs, by rw [h]; rfl⟩
    · rcases present_cases s s.acceptInit with ⟨hf, h⟩ | ⟨hf, hs, h⟩ | ⟨hf, hs, h⟩
      · exact ⟨_, .quiescent (.inr ⟨r, hm⟩) hf, by rw [h]; rfl⟩
      · exact ⟨_, .init r hm hd hf hs, by rw [h]; rfl⟩
      · exact ⟨_, .reentrant r hm hf hs, by rw [h]; rfl⟩
    · rcases present_cases s (s.raiseFault .illegalRequest) with ⟨hf, h⟩ | ⟨hf, hs, h⟩ | ⟨hf, hs, h⟩
      · exact ⟨_, .quiescent (.inr ⟨r, hm⟩) hf, by rw [h]; rfl⟩
      · exact ⟨_, .illegal r hm hf hs, by rw [h]; rfl⟩
      · exact ⟨_, .reentrant r hm hf hs, by rw [h]; rfl⟩
  | block =>
    cases hf : s.faulted with
    | true => exact .inl ⟨_, .quiescent (.inl hm) hf, step_block_faulted hm hf⟩
    | false =>
      cases hs : s.st with
      | idle => exact .inl ⟨_, .hold hm hf hs, step_idle hm hf hs⟩
      | csOn => exact .inl ⟨_, .csOn hm hf hs, step_csOn hm hf hs⟩
      | en => exact .inl ⟨_, .en hm hf hs, step_en hm hf hs⟩
      | txWait => exact .inl ⟨_, .txWait hm hf hs, step_txWait hm hf hs⟩
      | push =>
        by_cases hi : s.idx = 3
        · exact .inr ⟨rfl, rfl, rfl, hi, step_push_past hm hf hs hi⟩
        · rcases step_push hm hf hs hi with ⟨x, y, hp, hx, hy, -, h⟩ | ⟨x, hp, hx, -, h⟩
          · exact .inl ⟨_, .pushHalf hm hf hs x y hp hx hy, h⟩
          · exact .inl ⟨_, .pushByte hm hf hs x hp hx, h⟩
      | drainFifo => exact .inl ⟨_, .drainFifo hm hf hs, step_drainFifo hm hf hs⟩
      | drainBsy => exact .inl ⟨_, .drainBsy hm hf hs, step_drainBsy hm hf hs⟩
      | dis => exact .inl ⟨_, .dis hm hf hs, step_dis hm hf hs⟩
      | csOff => exact .inl ⟨_, .csOff hm hf (.inl hs), step_csOff hm hf (.inl hs)⟩
      | bCsOn => exact .inl ⟨_, .bCsOn hm hf hs, step_bCsOn hm hf hs⟩
      | bSend =>
        rcases step_bSend hm hf hs with ⟨hr, h⟩ | ⟨r, hr, h⟩
        · exact .inl ⟨_, .sendHeld hm hf hs hr, h⟩
        · exact .inl ⟨_, .sendReturned hm hf hs r hr, h⟩
      | bCsOff => exact .inl ⟨_, .csOff hm hf (.inr hs), step_csOff hm hf (.inr hs)⟩
      | done =>
        cases hr : s.retries with
        | true => exact .inl ⟨_, .retry hm hf hs hr, step_done_retries hm hf hs hr⟩
        | false => exact .inl ⟨_, .report hm hf hs hr, step_done_reports hm hf hs hr⟩
      | iTx => exact .inl ⟨_, .attempt hm hf hs, step_iTx hm hf hs⟩
      | iDelay => exact .inl ⟨_, .delay hm hf hs, step_iDelay hm hf hs⟩

/-- The inversion of a step that gives a next state. -/
theorem stepTo_of_step {s t : State} (h : step s = .next t) : ∃ u, StepTo s u ∧ t = u.draw := by
  rcases step_cases s with ⟨u, hu, hs⟩ | ⟨_, _, _, _, hs⟩
  · exact ⟨u, hu, (Host.Outcome.next.inj (hs.symm.trans h)).symm⟩
  · rw [hs] at h; exact absurd h (by simp)

end Sys2Proof.Machine
end

