-- ==== Sys2Proof/Laws/Trace.lean ====
section
/-! SUPPORT. Laws/Trace: the arrows of `Shape.next`, one equation each, and reading a trace event by event, so that no proof
unfolds the table of shapes. -/

namespace Sys2Proof.Machine

/-! ## The empty trace and one more event -/

@[simp] theorem readTrace_nil (c : Config) : readTrace c [] = some .start := rfl

/-- One more event moves the reader by one arrow. -/
theorem readTrace_append {c : Config} {tr : List Event} {sh : Shape} (h : readTrace c tr = some sh) (e : Event) :
    readTrace c (tr ++ [e]) = Shape.next c sh e := by
  have h' : List.foldlM (fun sh e => Shape.next c sh e) Shape.start tr = some sh := h
  simp [readTrace, List.foldlM_append, h']

/-! ## The arrows (R84) -/

section
variable (c : Config)

theorem next_start : Shape.next c .start .csAssert = some .selected := rfl

theorem next_selected_enable (h : c.variant = .polled) : Shape.next c .selected .busEnable = some (.wait [] 0) :=
  if_pos h

theorem next_selected_send (h : c.variant = .blocking) (f : FrameWord) :
    Shape.next c .selected (.send3 f) = some (.sent f) := if_pos h

theorem next_wait_ready (bs : List Byte) (k : Nat) : Shape.next c (.wait bs k) (.pollTxe true) = some (.ready bs) := rfl

theorem next_wait_again (bs : List Byte) (k : Nat) :
    Shape.next c (.wait bs k) (.pollTxe false) = some (Shape.notReady c k (Shape.wait bs)) := rfl

theorem next_ready_pair {bs : List Byte} (h : c.pushMode = .packed ∧ bs.length ≤ 1) (x y : Byte) :
    Shape.next c (.ready bs) (.pushHalf x y) = some (Shape.afterPush (bs ++ [x, y])) := if_pos h

theorem next_ready_byte {bs : List Byte} (h : c.pushMode = .bytewise ∨ bs.length = 2) (x : Byte) :
    Shape.next c (.ready bs) (.pushByte x) = some (Shape.afterPush (bs ++ [x])) := if_pos h

theorem next_fifo_empty (bs : List Byte) (k : Nat) : Shape.next c (.fifo bs k) (.pollFtlvl 0) = some (.busy bs 0) := rfl

theorem next_fifo_again (bs : List Byte) (k : Nat) {n : FrameWord} (h : n ≠ 0) :
    Shape.next c (.fifo bs k) (.pollFtlvl n) = some (Shape.notReady c k (Shape.fifo bs)) :=
  congrArg some (if_neg h)

theorem next_busy_drained (bs : List Byte) (k : Nat) :
    Shape.next c (.busy bs k) (.pollBsy false) = some (.drained bs) := rfl

theorem next_busy_again (bs : List Byte) (k : Nat) :
    Shape.next c (.busy bs k) (.pollBsy true) = some (Shape.notReady c k (Shape.busy bs)) := rfl

theorem next_drained (bs : List Byte) : Shape.next c (.drained bs) .busDisable = some (.disabled false) := rfl

theorem next_timedOut : Shape.next c .timedOut .busDisable = some (.disabled true) := rfl

theorem next_disabled (t : Bool) : Shape.next c (.disabled t) .csDeassert = some (.released t) := rfl

theorem next_sent (f : FrameWord) : Shape.next c (.sent f) .csDeassert = some .releasedSend := rfl

theorem next_released_ok : Shape.next c (.released false) (.result .ok) = some .start := rfl

theorem next_released_timeout : Shape.next c (.released true) (.result .timeout) = some .start := rfl

theorem next_releasedSend_result {r : Result} (h : r ≠ .timeout) :
    Shape.next c .releasedSend (.result r) = some .start := if_neg h

theorem next_releasedSend_delay : Shape.next c .releasedSend (.delay c.retryDelay) = some .start := if_pos rfl

end

end Sys2Proof.Machine
end

