-- ==== Sys2Proof/Tests/Slice0.lean ====
section
/-! SUPPORT. Tests: the checks of WellFormed, decoding of words written out from the spec, single steps whose expected result
is the spec's, and for every obligation with hypotheses a concrete state that meets them. -/

namespace Sys2Proof.Machine.Tests

/-! ## States built for the tests -/

/-- Reset, placed in a state of the block, on the block's turn. -/
def at_ (st : St) : State := { State.reset with st := st }

/-- The request of a word presented to a state. -/
def asked (w : Word) (s : State) : State := { s with env := { s.env with move := .request ⟨w, false⟩ } }

/-- A state with the host's reset, a shifting step, a poll answer or a send answer next. -/
def moved (m : Move) (s : State) : State := { s with env := { s.env with move := m } }

/-- A faulted state. -/
def faulty : State := { at_ .txWait with faults := ⟨true, false⟩ }

/-- `PUSH` of the last byte of T1 (95_test_vectors.md): the first byte is on the wire, the second queued. -/
def midPush : State :=
  { at_ .push with
    frame := ⟨0x10, 0x12, 0x34⟩, idx := 2, csN := false, busEn := true
    trace := [.csAssert, .busEnable, .pollTxe true, .pushHalf 0x10 0x12, .pollTxe true]
    bus := ⟨[0x12], [], wireBits 0x10#8, false⟩, dac := ⟨wireBits 0x10#8, []⟩
    env := { Env.quiet with ftlvl := 1, bsy := true } }

/-- `DONE` of INIT, one attempt made with the frame received. -/
def initDone : State :=
  { at_ .done with
    idx := 3, inInit := true, attempts := 1
    trace := [.csAssert, .busEnable, .pollTxe true, .pushHalf 0 0, .pollTxe true, .pushByte 0, .pollFtlvl 0,
      .pollBsy false, .busDisable, .csDeassert]
    dac := ⟨[], [some 0]⟩ }

/-- `TXWAIT` with a bound of `n` polls, `p` of them not ready. -/
def waiting (n p : Nat) : State :=
  { at_ .txWait with csN := false, busEn := true, polls := p, cfg := { Config.standard with waitBound := .atMost n } }

/-- `B_SEND` of the frame 10 12 34 with the primitive's answer. -/
def sending (r : Option SendResult) : State :=
  { at_ .bSend with
    frame := ⟨0x10, 0x12, 0x34⟩, csN := false, cfg := { Config.standard with variant := .blocking }
    env := { Env.quiet with send := r, sent := 5, sendBusEn := true } }

/-- `DONE` of a BLOCKING INIT whose attempt number `k` of at most `n` was answered `BUSY`. -/
def busyInit (n k : Nat) : State :=
  { at_ .done with
    inInit := true, outcome := .busy, attempts := k
    cfg := { Config.standard with variant := .blocking, maxAttempts := .atMost n } }

/-! ## WellFormed: an ill-formed term for each check, refused -/

theorem test_wf_illegal_spells_transmit : (Instr.illegalRequest 0x01101234).wf Config.standard = false := by decide
theorem test_wf_illegal_spells_init : (Instr.illegalRequest 0x02000000).wf Config.standard = false := by decide
theorem test_wf_frame_other_defined : (Instr.frameOther 0x34 0x8000).wf Config.standard = false := by decide
theorem test_wf_ftlvl_too_wide : (Instr.pollFtlvl 4).wf { Config.standard with ftlvlWidth := 2 } = false := by decide
theorem test_wf_ftlvl_widest : (Instr.pollFtlvl 3).wf { Config.standard with ftlvlWidth := 2 } = true := by decide
theorem test_legal_standard : Config.standard.legal = true := by decide
theorem test_legal_bound_zero : Config.legal { Config.standard with waitBound := .atMost 0 } = false := by decide
theorem test_legal_attempts_zero : Config.legal { Config.standard with maxAttempts := .atMost 0 } = false := by decide

/-! ## Decoding: words written out in 95_test_vectors.md L2.1 to L2.3 -/

theorem test_decode_transmit : decode (.req32 0x01FFFFFF) = .ok (.transmit 0xFF 0xFFFF) := by decide
theorem test_decode_init : decode (.req32 0x02000000) = .ok .init := by decide
theorem test_decode_illegal_init_bit0 : decode (.req32 0x02000001) = .ok (.illegalRequest 0x02000001) := by decide
theorem test_decode_illegal_zero : decode (.req32 0x00000000) = .ok (.illegalRequest 0) := by decide
theorem test_decode_wrbufA : decode (.frame24 0x00FF00) = .ok (.wrbufA 0xFF00) := by decide
theorem test_decode_wrbufB : decode (.frame24 0x0400FF) = .ok (.wrbufB 0x00FF) := by decide
theorem test_decode_wrldA : decode (.frame24 0x101234) = .ok (.wrldA 0x1234) := by decide
theorem test_decode_wrldB : decode (.frame24 0x24FFFF) = .ok (.wrldB 0xFFFF) := by decide
theorem test_decode_wrbufBWrldA : decode (.frame24 0x147FFF) = .ok (.wrbufBWrldA 0x7FFF) := by decide
theorem test_decode_wrldAWrldB : decode (.frame24 0x348000) = .ok (.wrldAWrldB 0x8000) := by decide
theorem test_decode_frame_other : decode (.frame24 0xFF0001) = .ok (.frameOther 0xFF 0x0001) := by decide
theorem test_decode_csAssert : decode (.evt32 0x01000000) = .ok .csAssert := by decide
theorem test_decode_csDeassert : decode (.evt32 0x02000000) = .ok .csDeassert := by decide
theorem test_decode_busEnable : decode (.evt32 0x03000000) = .ok .busEnable := by decide
theorem test_decode_busDisable : decode (.evt32 0x04000000) = .ok .busDisable := by decide
theorem test_decode_pollTxe : decode (.evt32 0x05000000) = .ok (.pollTxe false) := by decide
theorem test_decode_pollFtlvl : decode (.evt32 0x06000003) = .ok (.pollFtlvl 3) := by decide
theorem test_decode_pollBsy : decode (.evt32 0x07000001) = .ok (.pollBsy true) := by decide
theorem test_decode_pushByte : decode (.evt32 0x08000034) = .ok (.pushByte 0x34) := by decide
theorem test_decode_pushHalf : decode (.evt32 0x09001012) = .ok (.pushHalf 0x10 0x12) := by decide
theorem test_decode_send3 : decode (.evt32 0x0A101234) = .ok (.send3 0x101234) := by decide
theorem test_decode_delay : decode (.evt32 0x0B000019) = .ok (.delay 25) := by decide
theorem test_decode_result : decode (.evt32 0x0C000002) = .ok (.result .error) := by decide
theorem test_decode_no_kind : decode (.evt32 0x0D000000) = .error (.noSuchKind 0x0D) := by decide
theorem test_decode_payload : decode (.evt32 0x05000002) = .error (.payloadNotZero 0x05) := by decide

/-! ## The assembler: L2.2's forms -/

theorem test_assemble_or : assembleLine "TRANSMIT WRLD_A|WRLD_B, 0x8000" = some 0x01348000 := by decide
theorem test_assemble_pseudo : assembleLine "WRBUF_B 0x00FF ; channel B" = some 0x010400FF := by decide
theorem test_assemble_init : assembleLine "INIT" = some 0x02000000 := by decide
theorem test_assemble_cmd_too_wide : assembleLine "TRANSMIT 0x100, 0" = none := by decide
theorem test_assemble_code_too_wide : assembleLine "TRANSMIT 0x10, 65536" = none := by decide

/-! ## The wire: L2.3's bits -/

theorem test_wire_bits : wireBits 0x348000#24 =
    [false, false, true, true, false, true, false, false, true, false, false, false, false, false, false, false,
      false, false, false, false, false, false, false, false] := by decide

/-! ## The table's words and their placement -/

theorem test_table_word_transmit : decodeTableWord 32 0x01101234 = some (.transmit 0x10 0x1234) := by decide
theorem test_table_word_frame : decodeTableWord 24 0x147FFF = some (.wrbufBWrldA 0x7FFF) := by decide
theorem test_table_word_event : decodeTableWord 32 0x0B00000A = some (.delay 10) := by decide
theorem test_table_word_other_width : decodeTableWord 16 0 = none := by decide
theorem test_placed_send : (State.reset.withFetchWord 32 0x0A101234).fetch = some (.send3 0x101234) := by decide
theorem test_placed_frame : (State.reset.withFetchWord 24 0x24FFFF).fetch = some (.wrldB 0xFFFF) := by decide

/-! ## Single steps: T1, T2 and I1 to I3 of 95_test_vectors.md, one event each -/

/-- The block's own step, its next state looked at through `f`. -/
def after {α : Type} (s : State) (f : State → α) : Option α :=
  match step s with
  | .next t => some (f t)
  | .fault _ => none
  | .refused _ => none

theorem test_transmit_accepts : after (asked 0x01101234 State.reset) (fun t => (t.st, t.frame, t.trace)) =
    some (.csOn, ⟨0x10, 0x12, 0x34⟩, []) := by decide
theorem test_init_accepts : after (asked 0x02000000 State.reset) (fun t => (t.st, t.frame, t.inInit, t.attempts)) =
    some (.iTx, ⟨0, 0, 0⟩, true, 0) := by decide
theorem test_illegal_faults : after (asked 0x03000000 State.reset) (fun t => (t.st, t.faults)) =
    some (.idle, ⟨false, true⟩) := by decide
theorem test_reentrant_faults : after (asked 0x03000000 (at_ .txWait)) (fun t => (t.st, t.faults)) =
    some (.txWait, ⟨true, false⟩) := by decide
theorem test_wrldB_presented : after (moved (.request ⟨0x0124FFFF, true⟩) State.reset) (fun t => (t.st, t.frame)) =
    some (.csOn, ⟨0x24, 0xFF, 0xFF⟩) := by decide
theorem test_frame_other_presented : after (moved (.request ⟨0x01FF0001, true⟩) State.reset) (fun t => t.frame) =
    some ⟨0xFF, 0x00, 0x01⟩ := by decide
theorem test_csAssert_drops_pin : after (at_ .csOn) (fun t => (t.st, t.csN, t.trace)) =
    some (.en, false, [.csAssert]) := by decide
theorem test_csDeassert_raises_pin : after { at_ .bCsOff with csN := false } (fun t => (t.st, t.csN, t.trace)) =
    some (.done, true, [.csDeassert]) := by decide
theorem test_busEnable : after { at_ .en with polls := 7 } (fun t => (t.st, t.busEn, t.polls)) =
    some (.txWait, true, 0) := by decide
theorem test_busDisable : after { at_ .dis with busEn := true } (fun t => (t.st, t.busEn, t.trace)) =
    some (.csOff, false, [.busDisable]) := by decide
theorem test_pollTxe_last_poll_times_out : after (waiting 3 2) (fun t => (t.st, t.outcome, t.polls)) =
    some (.dis, .timeout, 3) := by decide
theorem test_pollTxe_not_yet : after (waiting 3 1) (fun t => (t.st, t.outcome, t.polls)) =
    some (.txWait, .ok, 2) := by decide
theorem test_pollFtlvl_low_bits : after { at_ .drainFifo with
      env := { Env.quiet with ftlvl := 4 }, cfg := { Config.standard with ftlvlWidth := 2 } }
    (fun t => (t.st, t.trace)) = some (.drainBsy, [.pollFtlvl 0]) := by decide
theorem test_pollBsy_keeps_polls : after { at_ .drainBsy with polls := 4 } (fun t => (t.st, t.polls)) =
    some (.dis, 4) := by decide
theorem test_pushByte_ends_the_frame : after midPush (fun t => (t.st, t.idx, t.bus.queue)) =
    some (.drainFifo, 3, [0x12, 0x34]) := by decide
theorem test_pushHalf_first_pair : after { midPush with idx := 0 } (fun t => (t.st, t.idx, t.bus.queue)) =
    some (.txWait, 2, [0x12, 0x10, 0x12]) := by decide
theorem test_send3_ok : after (sending (some .ok)) (fun t => (t.st, t.outcome, t.busEn, t.bus.wire)) =
    some (.bCsOff, .ok, true, wireBits 0x101234#24) := by decide
theorem test_send3_error_prefix : after (sending (some .error)) (fun t => (t.outcome, t.bus.wire)) =
    some (.error, [false, false, false, true, false]) := by decide
theorem test_delay : after { at_ .iDelay with inInit := true } (fun t => (t.st, t.trace)) =
    some (.iTx, [.delay 10]) := by decide
theorem test_result_reports : after { at_ .done with outcome := .timeout } (fun t => (t.st, t.trace)) =
    some (.idle, [.result .timeout]) := by decide
theorem test_init_retries : after (busyInit 3 2) (fun t => (t.st, t.trace, t.inInit)) =
    some (.iDelay, [], true) := by decide
theorem test_init_gives_up : after (busyInit 3 3) (fun t => (t.st, t.trace, t.inInit)) =
    some (.idle, [.result .busy], false) := by decide
theorem test_attempt_counts : after { at_ .iTx with inInit := true, attempts := 1 } (fun t => (t.st, t.attempts)) =
    some (.csOn, 2) := by decide
theorem test_shift_takes_msb_first : after (moved .shift midPush) (fun t => (t.bus.queue, t.bus.shifter)) =
    some ([], wireBits 0x12#8) := by decide

/-- T1's trace is of R84's shape (95_test_vectors.md L2.4). -/
theorem test_trace_T1 : readTrace Config.standard [.csAssert, .busEnable, .pollTxe true, .pushHalf 0x10 0x12, .pollTxe true,
    .pushByte 0x34, .pollFtlvl 0, .pollBsy false, .busDisable, .csDeassert, .result .ok] = some .start := by decide
/-- A bus disabled before the drain is not. -/
theorem test_trace_no_drain : readTrace Config.standard [.csAssert, .busEnable, .pollTxe true, .pushHalf 0x10 0x12,
    .busDisable] = none := by decide

/-! ## Witnesses: every obligation's hypotheses are met -/

theorem witness_O1_every_format : ∀ i ∈ [Instr.transmit 0xFF 0xFFFF, .illegalRequest 0x02000001, .illegalRequest 0x00FFFFFF,
    .frameOther 0x01 0, .frameOther 0xFF 0xFFFF, .pollFtlvl 0xFFFFFF, .result .timeout],
    i.wf Config.standard = true := by decide
theorem witness_O2 : decode (.evt32 0x0900FFFF) = .ok (.pushHalf 0xFF 0xFF) ∧
    decode (.req32 0xFFFFFFFF) = .ok (.illegalRequest 0xFFFFFFFF) ∧ Config.standard.ftlvlWidth = 24 := by decide
theorem witness_O3 : (0x00#8 ≠ 0x01 ∧ 0x00#8 ≠ 0x02) ∧ (0x03#8 ≠ 0x01 ∧ 0x03#8 ≠ 0x02) ∧
    (0xFF#8 ≠ 0x01 ∧ 0xFF#8 ≠ 0x02) := by decide
theorem witness_O4 : 0x01#8 ∉ [0x00#8, 0x04#8, 0x10#8, 0x14#8, 0x24#8, 0x34#8] ∧
    0x35#8 ∉ [0x00#8, 0x04#8, 0x10#8, 0x14#8, 0x24#8, 0x34#8] := by decide
theorem witness_O6_kinds : 0x0C < (0x0D#8).toNat ∧ 0x0C < (0xFF#8).toNat ∧ ¬ 0x0C < (0x0C#8).toNat := by decide
theorem witness_O6_payloads : (0x04#8 ∈ [0x01#8, 0x02#8, 0x03#8, 0x04#8] ∧ (1#24 : FrameWord) ≠ 0) ∧
    (0x07#8 ∈ [0x05#8, 0x07#8] ∧ 1 < (2#24).toNat) ∧ 0xFF < (0x100#24).toNat ∧ 0xFFFF < (0x10000#24).toNat ∧
    3 < (4#24).toNat := by decide
theorem witness_O6_largest_payloads : decode (.evt32 0x080000FF) = .ok (.pushByte 0xFF) ∧
    decode (.evt32 0x0900FFFF) = .ok (.pushHalf 0xFF 0xFF) ∧ decode (.evt32 0x0C000003) = .ok (.result .timeout) := by
  decide
theorem witness_O9 : (255 < 256 ∧ 65535 < 65536) ∧ (256 ≤ 256 ∨ 65536 ≤ 0) ∧ (256 ≤ 0 ∨ 65536 ≤ 65536) := by decide

/-- O10 to O13, O18: an IDLE state with no fault. -/
theorem witness_O10 : State.reset.st = .idle ∧ State.reset.faulted = false := by decide
theorem witness_O11 : (Instr.frameOther 0x01 7, 0x01#8) ∈ [(Instr.wrbufA 7, 0x00#8), (Instr.frameOther 0x01 7, 0x01#8)] ∧
    State.reset.st = .idle ∧ State.reset.faulted = false := by decide
theorem witness_O14_idle : (0x03#8 ≠ 0x01 ∧ 0x03#8 ≠ 0x02) ∧ State.reset.faulted = false ∧ State.reset.st = .idle := by decide
theorem witness_O14_busy : (0x02#8 = 0x02 ∧ (0x800000#24 : FrameWord) ≠ 0) ∧ (at_ .done).faulted = false ∧
    (at_ .done).st ≠ .idle := by decide
theorem witness_O15_reentrant : (asked 0x01101234 (at_ .done)).faulted = false ∧
    (asked 0x01101234 (at_ .done)).env.move = .request ⟨0x01101234, false⟩ ∧ (asked 0x01101234 (at_ .done)).st ≠ .idle := by
  decide
theorem witness_O15_illegal : (asked 0 State.reset).faulted = false ∧ (asked 0 State.reset).env.move = .request ⟨0, false⟩ ∧
    (asked 0 State.reset).st = .idle ∧ decodeReq 0 = .illegalRequest 0 := by decide
theorem witness_O16 : faulty.faulted = true ∧ faulty.env.move ≠ .reset ∧ (moved .reset faulty).faulted = true ∧
    (moved .reset faulty).env.move = .reset := by decide
theorem witness_O17_grows : ∃ t, step (asked 0 (at_ .txWait)) = .next t ∧ (asked 0 (at_ .txWait)).env.move ≠ .reset ∧
    t.faults ≠ (asked 0 (at_ .txWait)).faults := ⟨_, rfl, by decide, by decide⟩
theorem witness_O17_sticks : ∃ t, step faulty = .next t ∧ faulty.env.move ≠ .reset ∧
    faulty.faults.reentrantRequest = true := ⟨_, rfl, by decide, by decide⟩
theorem witness_O17_illegal_sticks : ∃ t, step { faulty with faults := ⟨false, true⟩ } = .next t ∧
    faulty.env.move ≠ .reset ∧ ({ faulty with faults := ⟨false, true⟩ } : State).faults.illegalRequest = true :=
  ⟨_, rfl, by decide, by decide⟩
theorem witness_O17_reset : ∃ t, step (moved .reset faulty) = .next t ∧ (moved .reset faulty).env.move = .reset :=
  ⟨_, rfl, by decide⟩
/-- O19 to O22, O26, O27, O30, O31: a state with no fault in each of the block's states. -/
theorem witness_unfaulted_states : ∀ st ∈ [St.csOn, .bCsOn, .en, .txWait, .drainFifo, .drainBsy, .dis, .csOff, .bCsOff, .iDelay,
    .done, .iTx], (at_ st).faulted = false ∧ (at_ st).st = st ∧ (at_ st).env.move = .block ∧ (at_ st).inInit = false := by
  decide
theorem witness_O21_fifo_not_ready : (at_ .drainFifo).st = .drainFifo ∧ (0xFFFFFF#24 : FrameWord) ≠ 0 ∧
    (at_ .drainFifo).cfg.ftlvlFits 0xFFFFFF = true := by decide
theorem witness_O21_drain_step : ∃ t, step (at_ .drainBsy) = .next t ∧ (at_ .drainBsy).st = .drainBsy := ⟨_, rfl, by decide⟩
theorem witness_O22_bound : (waiting 1 0).faulted = false ∧ (waiting 1 0).st = .txWait ∧
    (waiting 1 0).cfg.waitBound = .atMost 1 ∧ (waiting 1 0).polls + 1 = 1 ∧ (waiting 2 0).polls + 1 ≠ 2 := by decide
theorem witness_O22_unbounded : (at_ .drainBsy).faulted = false ∧ (at_ .drainBsy).cfg.waitBound = .unbounded := by decide
theorem witness_O22_timed_out : ∀ st ∈ [St.dis, .csOff, .done], ({ at_ st with outcome := .timeout } : State).faulted = false ∧
    ({ at_ st with outcome := .timeout } : State).outcome = .timeout := by decide
theorem witness_O23 : ∀ p ∈ [(0, 0x10#8, 0x12#8), (1, 0x12#8, 0x34#8)], ∃ s : State, s.faulted = false ∧ s.st = .push ∧
    s.cfg.pushMode = .packed ∧ 1 < 3 - s.idx.val ∧ s.idx.val = p.1 ∧
    [s.frame.b0, s.frame.b1, s.frame.b2][s.idx.val]? = some p.2.1 ∧
    [s.frame.b0, s.frame.b1, s.frame.b2][s.idx.val + 1]? = some p.2.2 ∧
    s.trace.getLast? = some (.pollTxe true) := by
  intro p hp
  simp only [List.mem_cons, List.not_mem_nil, or_false] at hp
  rcases hp with rfl | rfl
  · exact ⟨{ midPush with idx := 0 }, by decide⟩
  · exact ⟨{ midPush with idx := 1 }, by decide⟩
theorem witness_O24_last : midPush.faulted = false ∧ midPush.st = .push ∧ 3 - midPush.idx.val = 1 ∧
    [midPush.frame.b0, midPush.frame.b1, midPush.frame.b2][midPush.idx.val]? = some 0x34 ∧
    midPush.trace.getLast? = some (.pollTxe true) := by decide
/-- The same PUSH one byte at a time. -/
def bytewisePush : State := { midPush with idx := 0, cfg := { Config.standard with pushMode := .bytewise } }
theorem witness_O24_bytewise : bytewisePush.faulted = false ∧ bytewisePush.st = .push ∧
    bytewisePush.cfg.pushMode = .bytewise ∧
    [bytewisePush.frame.b0, bytewisePush.frame.b1, bytewisePush.frame.b2][bytewisePush.idx.val]? = some 0x10 ∧
    bytewisePush.trace.getLast? = some (.pollTxe true) := by decide
theorem witness_O25 : ({ midPush with idx := 3 } : State).faulted = false ∧ ({ midPush with idx := 3 } : State).st = .push ∧
    ({ midPush with idx := 3 } : State).idx = 3 := by decide
theorem witness_O26_enters : (∃ t, step (at_ .drainBsy) = .next t ∧ t.st = .dis ∧ (at_ .drainBsy).st ≠ .dis) ∧
    (∃ t, step (waiting 1 0) = .next t ∧ t.st = .dis ∧ (waiting 1 0).st ≠ .dis) :=
  ⟨⟨_, rfl, by decide, by decide⟩, ⟨_, rfl, by decide, by decide⟩⟩
theorem witness_O26_drained : (at_ .dis).bus.drained = true ∧ (at_ .csOff).csN = true := by decide
theorem witness_O28 : ∀ r ∈ [none, some SendResult.ok, some .busy, some .error],
    (sending r).faulted = false ∧ (sending r).st = .bSend ∧ (sending r).env.send = r := by decide
theorem witness_O29 : ∀ r : SendResult, (sending (some r)).env.send = some r ∧
    ∃ t, exec (.send3 (sending (some r)).frame.word) (sending (some r)) = .next t := by
  intro r; cases r <;> exact ⟨rfl, _, rfl⟩
/-- O31: a run in which the host has presented one request. -/
theorem witness_O31_run : ∃ s, HostRun (asked 0x01101234 State.reset) [⟨0x01101234, false⟩] s ∧ s.faulted = false ∧ s.st = .csOn :=
  ⟨{ at_ .csOn with frame := ⟨0x10, 0x12, 0x34⟩, draws := 1 },
    .request (.launch (by unfold State.cleanEntry; decide)) rfl (by decide) ⟨_, rfl, rfl⟩, by decide, by decide⟩
theorem witness_O31_idle : HostRun State.reset [] State.reset ∧ State.reset.faulted = false ∧ State.reset.st = .idle :=
  ⟨.launch (by unfold State.cleanEntry; decide), by decide, by decide⟩
theorem witness_O32_retries : (busyInit 2 1).faulted = false ∧ (busyInit 2 1).st = .done ∧ (busyInit 2 1).inInit = true ∧
    (busyInit 2 1).outcome = .busy ∧ (busyInit 2 1).cfg.maxAttempts = .atMost 2 ∧ (busyInit 2 1).attempts < 2 ∧
    (busyInit 2 1).env.move = .block := by decide
theorem witness_O32_reports : ∃ s : State, s.faulted = false ∧ s.st = .done ∧ s.inInit = true ∧
    ¬ (s.outcome = .busy ∧ (s.cfg.maxAttempts = .unbounded ∨ ∃ n, s.cfg.maxAttempts = .atMost n ∧ s.attempts < n)) :=
  ⟨busyInit 2 2, by decide, by decide, by decide, by simp [busyInit, at_]⟩
theorem witness_O34 : (∃ t, exec (.wrldA 5) State.reset = .next t) ∧ (∃ t, exec .init State.reset = .next t) ∧
    (∃ t, exec (.illegalRequest 0) State.reset = .next t) := ⟨⟨_, rfl⟩, ⟨_, rfl⟩, ⟨_, rfl⟩⟩
theorem witness_O35_pin_and_enable : (∃ t, exec .csAssert (at_ .csOn) = .next t) ∧
    (∃ t, exec .csDeassert (at_ .csOff) = .next t) ∧ (∃ t, exec .busEnable (at_ .en) = .next t) ∧
    (∃ t, exec .busDisable (at_ .dis) = .next t) := ⟨⟨_, rfl⟩, ⟨_, rfl⟩, ⟨_, rfl⟩, ⟨_, rfl⟩⟩
theorem witness_O35_polls : (∃ t, exec (.pollTxe true) (at_ .txWait) = .next t) ∧
    (∃ t, exec (.pollFtlvl 5) (at_ .drainFifo) = .next t) ∧ (∃ t, exec (.pollBsy true) (at_ .drainBsy) = .next t) :=
  ⟨⟨_, rfl⟩, ⟨_, rfl⟩, ⟨_, rfl⟩⟩
theorem witness_O35_data : (∃ t, exec (.pushByte 0x34) midPush = .next t) ∧
    (∃ t, exec (.pushHalf 0x10 0x12) { midPush with idx := 0 } = .next t) ∧
    (∃ t, exec (.send3 0x101234) (sending none) = .next t) ∧ (∃ t, exec (.delay 10) (at_ .iDelay) = .next t) ∧
    (∃ t, exec (.result .ok) (at_ .done) = .next t) := ⟨⟨_, rfl⟩, ⟨_, rfl⟩, ⟨_, rfl⟩, ⟨_, rfl⟩, ⟨_, rfl⟩⟩
theorem witness_O36 : (∃ t, step midPush = .next t ∧ midPush.env.move ≠ .reset) ∧
    (∃ t, step (moved .reset midPush) = .next t ∧ (moved .reset midPush).env.move = .reset) :=
  ⟨⟨_, rfl, by decide⟩, ⟨_, rfl, by decide⟩⟩
theorem witness_O37 : (∃ t, step (at_ .csOn) = .next t ∧ t.csN ≠ (at_ .csOn).csN) ∧
    (∃ t, step { at_ .csOff with csN := false } = .next t ∧ t.csN ≠ false) :=
  ⟨⟨_, rfl, by decide⟩, ⟨_, rfl, by decide⟩⟩
theorem witness_O38 : (∃ t, step (at_ .en) = .next t ∧ t.busEn ≠ (at_ .en).busEn) ∧
    (∃ t, step { at_ .dis with busEn := true } = .next t ∧ t.busEn ≠ true) ∧
    (∃ t, step (sending (some .busy)) = .next t ∧ t.busEn ≠ (sending (some .busy)).busEn) :=
  ⟨⟨_, rfl, by decide⟩, ⟨_, rfl, by decide⟩, ⟨_, rfl, by decide⟩⟩
/-- A blocking send that is in progress when the host resets the block. -/
def abandoned : State :=
  { sending none with
    bus := { Bus.reset with sending := true }, env := { (sending none).env with move := .reset } }
theorem witness_O38_abandoned : ∃ t, step abandoned = .next t ∧ t.busEn ≠ abandoned.busEn := ⟨_, rfl, by decide⟩
theorem witness_O39_init : ∃ t, step (asked 0x02000000 { State.reset with frame := ⟨1, 2, 3⟩ }) = .next t ∧ t.frame ≠ ⟨1, 2, 3⟩ :=
  ⟨_, rfl, by decide⟩
theorem witness_O39 : (∃ t, step (asked 0x01101234 State.reset) = .next t ∧ t.frame ≠ State.reset.frame) ∧
    (∃ t, step { midPush with st := .iTx } = .next t ∧ t.frame ≠ midPush.frame) :=
  ⟨⟨_, rfl, by decide⟩, ⟨_, rfl, by decide⟩⟩
theorem witness_O40_sets : ∃ t, step (asked 0x02000000 State.reset) = .next t ∧ State.reset.inInit = false ∧
    t.inInit = true := ⟨_, rfl, by decide, by decide⟩
theorem witness_O40_clears : ∃ t, step initDone = .next t ∧ initDone.inInit = true ∧ t.inInit = false ∧
    initDone.env.move ≠ .reset := ⟨_, rfl, by decide, by decide, by decide⟩
theorem witness_O40_counts : ∃ t, step (at_ .iTx) = .next t ∧ t.attempts ≠ (at_ .iTx).attempts := ⟨_, rfl, by decide⟩
theorem witness_O41 : (moved .reset faulty).env.move = .reset ∧ (moved .reset midPush).env.move = .reset ∧
    (moved .reset midPush).csN = false ∧ abandoned.env.move = .reset ∧ abandoned.bus.sending = true := by decide
theorem witness_O43 : (asked 0x01101234 State.reset).env.move = .request ⟨0x01101234, false⟩ ∧
    decode (.req32 0x01101234) = .ok (.transmit 0x10 0x1234) ∧
    (moved (.request ⟨0x01101234, true⟩) State.reset).env.move = .request ⟨0x01#8 ++ 0x101234#24, true⟩ ∧
    decode (.frame24 0x101234) = .ok (.wrldA 0x1234) ∧
    midPush.env.move = .block ∧ midPush.faulted = false ∧ midPush.ownOp = some (.pushByte 0x34) := by decide
theorem witness_O44 : (Instr.illegalRequest 0xFFFFFFFF).wf State.reset.cfg = true := by decide
theorem witness_O45 : ({ sending none with bus := { Bus.reset with sending := true } } : State).faulted = false ∧
    ({ sending none with bus := { Bus.reset with sending := true } } : State).st = .bSend ∧
    (sending none).env.send = none ∧ (sending none).env.move = .block := by decide
theorem witness_O46 : step { midPush with idx := 3 } = .fault .frameIndex := rfl

/-! ### The invariants' witnesses: a PUSH in the middle of a frame, INIT's report, a bounded wait, the reset state -/

theorem reset_ctlInv : State.reset.ctlInv := by
  refine ⟨by decide, by decide, by decide, ?_, ?_, ?_, by decide, ?_, by decide, by decide⟩
  · unfold State.idxInv; decide
  · unfold State.outcomeInv; decide
  · unfold State.initInv; decide
  · intro n h; cases h

theorem midPush_ctlInv : midPush.ctlInv := by
  refine ⟨by decide, by decide, by decide, ?_, ?_, ?_, by decide, ?_, by decide, by decide⟩
  · unfold State.idxInv; decide
  · unfold State.outcomeInv; decide
  · unfold State.initInv; decide
  · intro n h; cases h

theorem midPush_pinInv : midPush.pinInv := by unfold State.pinInv; decide
theorem midPush_wireInv : midPush.wireInv := by unfold State.wireInv; decide
theorem midPush_drainLaw : midPush.drainLaw := by unfold State.drainLaw; decide
theorem midPush_traceInv : midPush.traceInv := by unfold State.traceInv; decide

theorem initDone_ctlInv : initDone.ctlInv := by
  refine ⟨by decide, by decide, by decide, ?_, ?_, ?_, by decide, ?_, by decide, by decide⟩
  · unfold State.idxInv; decide
  · unfold State.outcomeInv; decide
  · unfold State.initInv; decide
  · intro n h; cases h

theorem initDone_pinInv : initDone.pinInv := by unfold State.pinInv; decide
theorem initDone_wireInv : initDone.wireInv := by unfold State.wireInv; decide
theorem initDone_traceInv : initDone.traceInv := by unfold State.traceInv; decide

theorem waiting_ctlInv : (waiting 1 0).ctlInv := by
  refine ⟨by decide, by decide, by decide, ?_, ?_, ?_, by decide, ?_, by decide, by decide⟩
  · unfold State.idxInv; decide
  · unfold State.outcomeInv; decide
  · unfold State.initInv; decide
  · intro n h _
    have h' : n = 1 := by simpa [waiting] using h.symm
    subst h'; decide

/-- The first pair of that PUSH: the step comes back to `TXWAIT` with a byte left (O21). -/
theorem witness_O21_remaining : ({ midPush with idx := 0 } : State).ctlInv ∧
    ∃ t, step { midPush with idx := 0 } = .next t ∧ t.st = .txWait := by
  refine ⟨⟨by decide, by decide, by decide, ?_, ?_, ?_, by decide, ?_, by decide, by decide⟩, _, rfl, by decide⟩
  · unfold State.idxInv; decide
  · unfold State.outcomeInv; decide
  · unfold State.initInv; decide
  · intro n h; cases h

theorem busyInit_ctlInv : (busyInit 2 2).ctlInv := by
  refine ⟨by decide, by decide, by decide, ?_, ?_, ?_, by decide, ?_, by decide, by decide⟩
  · unfold State.idxInv; decide
  · unfold State.outcomeInv; decide
  · unfold State.initInv; decide
  · intro n h; cases h

theorem witness_O10_idle_invariant : State.reset.ctlInv ∧ State.reset.st = .idle := ⟨reset_ctlInv, rfl⟩
theorem witness_O48 : midPush.ctlInv ∧ ∃ t, step midPush = .next t := ⟨midPush_ctlInv, _, rfl⟩
theorem witness_O49 : midPush.ctlInv ∧ midPush.pinInv ∧ midPush.env.move ≠ .reset ∧ ∃ t, step midPush = .next t :=
  ⟨midPush_ctlInv, midPush_pinInv, by decide, _, rfl⟩
theorem witness_O50 : midPush.ctlInv ∧ midPush.pinInv ∧ midPush.wireInv ∧ midPush.drainLaw ∧ midPush.env.move ≠ .reset ∧
    ∃ t, step midPush = .next t ∧ ¬ ((t.st = .dis ∨ t.st = .csOff ∨ t.st = .done) ∧ t.outcome = .timeout) :=
  ⟨midPush_ctlInv, midPush_pinInv, midPush_wireInv, midPush_drainLaw, by decide, _, rfl, by decide⟩
theorem witness_O51 : midPush.ctlInv ∧ midPush.traceInv ∧ ∃ t, step midPush = .next t :=
  ⟨midPush_ctlInv, midPush_traceInv, _, rfl⟩
theorem witness_O51_report : initDone.ctlInv ∧ initDone.traceInv ∧ ∃ t, step initDone = .next t :=
  ⟨initDone_ctlInv, initDone_traceInv, _, rfl⟩
theorem witness_O52 : (waiting 1 0).ctlInv ∧ (waiting 1 0).cfg.waitBound = .atMost 1 ∧ (waiting 1 0).st.isPolled = true ∧
    (waiting 1 0).faulted = false ∧ (waiting 1 0).env.move = .block :=
  ⟨waiting_ctlInv, rfl, rfl, rfl, rfl⟩
theorem witness_O53 : (waiting 1 0).ctlInv ∧ (waiting 1 0).st.isPolled = true ∧ (waiting 1 0).faulted = false ∧
    (waiting 1 0).env.move = .block := ⟨waiting_ctlInv, rfl, rfl, rfl⟩
/-- The same PUSH with every answer ready. -/
def readyPush : State := { midPush with env := { Env.quiet with txe := true, send := some .ok } }
theorem witness_O53_ready : readyPush.ctlInv ∧ readyPush.st.isPolled = true ∧ readyPush.faulted = false ∧
    readyPush.env.move = .block ∧ readyPush.answeredReady :=
  ⟨midPush_ctlInv, rfl, rfl, rfl, trivial⟩
/-- The last steps of a BLOCKING transmit, and then `IDLE` for ever: the block moves at every step. -/
def endRun : Nat → State
  | 0 => { at_ .bCsOff with csN := false, cfg := { Config.standard with variant := .blocking } }
  | n + 1 => match step (endRun n) with
    | .next t => { t with env := Env.quiet }
    | .fault _ | .refused _ => endRun n
/-- What every state of that run is. -/
def ending (s : State) : Prop :=
  s.env = Env.quiet ∧ s.busEn = false ∧ s.faulted = false ∧ s.inInit = false ∧ (s.st = .bCsOff ∨ s.st = .done ∨ s.st = .idle)
theorem ending_step {s : State} (h : ending s) : ∃ u, step s = .next u ∧ ending { u with env := Env.quiet } := by
  obtain ⟨he, hb, hf, hi, hs⟩ := h
  have hm : s.env.move = .block := by rw [he]; rfl
  rcases hs with hs | hs | hs
  · exact ⟨_, step_csOff hm hf (.inr hs), rfl, by simpa using hb, by simpa [State.faulted] using hf, by simpa using hi, by simp⟩
  · exact ⟨_, step_done_reports hm hf hs (by simp [State.retries, hi]), rfl, by simpa using hb, by simpa [State.faulted] using hf, by simp,
      by simp⟩
  · exact ⟨_, step_idle hm hf hs, rfl, hb, hf, hi, .inr (.inr hs)⟩
theorem endRun_ending : ∀ n, ending (endRun n)
  | 0 => by unfold ending; decide
  | n + 1 => by obtain ⟨u, hu, h⟩ := ending_step (endRun_ending n); simpa only [endRun, hu] using h
theorem witness_O53_run : transmitRun endRun ∧ responsiveBus endRun ∧ (endRun 0).ctlInv ∧ (endRun 0).faulted = false ∧
    (endRun 0).st.isBlocking = true := by
  have hm : ∀ n, (endRun n).env.move = .block := fun n => by rw [(endRun_ending n).1]; rfl
  have hno : ∀ n, ¬ (endRun n).turnIn .bSend := fun n ⟨_, _, h⟩ => by
    rcases (endRun_ending n).2.2.2.2 with hs | hs | hs <;> simp [hs] at h
  refine ⟨⟨fun n => ?_, fun n => .inl (hm n), fun n => ⟨n, le_rfl, hm n⟩⟩, ⟨fun n h => ?_, fun n w h => ⟨n, le_rfl, .inl ⟨h, ?_⟩⟩,
    fun n h => by obtain ⟨k, _, hk, _⟩ := h n le_rfl; exact absurd hk (hno k)⟩, ⟨by decide, by decide, by decide, ?_, ?_, ?_, by decide, ?_, by decide, by decide⟩, by decide,
    by decide⟩
  · obtain ⟨u, hu, -⟩ := ending_step (endRun_ending n)
    exact ⟨u, hu, by simp only [endRun, hu]⟩
  · rw [(endRun_ending n).2.1] at h; cases h
  · rcases (endRun_ending n).2.2.2.2 with hs | hs | hs <;> simp [State.answeredReady, hs]
  · unfold State.idxInv; decide
  · unfold State.outcomeInv; decide
  · unfold State.initInv; decide
  · intro n h; cases h
theorem witness_O54 : initDone.ctlInv ∧ ∃ t, exec (.result .ok) initDone = .next t := ⟨initDone_ctlInv, _, rfl⟩
theorem witness_O54_busy : (busyInit 2 2).ctlInv ∧ (busyInit 2 2).inInit = true ∧
    ∃ t, exec (.result .busy) (busyInit 2 2) = .next t := ⟨busyInit_ctlInv, rfl, _, rfl⟩
/-- O55 and O56. -/
theorem witness_O55 : initDone.ctlInv ∧ initDone.pinInv ∧ initDone.wireInv ∧ initDone.inInit = true ∧
    ∃ t, exec (.result .ok) initDone = .next t :=
  ⟨initDone_ctlInv, initDone_pinInv, initDone_wireInv, rfl, _, rfl⟩
theorem witness_O57 : (moved .shift midPush).env.move = .shift ∧ (moved .shift midPush).busEn = true ∧
    (moved .shift midPush).bus.shifter = [] ∧ (moved .shift midPush).bus.queue = [0x12] ∧
    ({ midPush with bus := { midPush.bus with shifter := [true] } } : State).bus.shifter = [true] ∧
    (moved .shift State.reset).busEn = false ∧ (moved .shift State.reset).bus.queue = [] := by decide
theorem witness_O58 : (∃ t, exec (.pushByte 0x34) { midPush with trace := [] } = .next t) ∧
    (∃ t, exec (.pushHalf 0x10 0x12) { midPush with trace := [], idx := 0 } = .next t) ∧
    (∃ t, exec .busDisable { midPush with st := .dis } = .next t) ∧
    (∃ t, exec .csDeassert { midPush with st := .csOff } = .next t) ∧ midPush.ctlInv ∧ midPush.st = .push :=
  ⟨⟨_, rfl⟩, ⟨_, rfl⟩, ⟨_, rfl⟩, ⟨_, rfl⟩, midPush_ctlInv, rfl⟩
/-- O58: a bus in flight, of which nine bits survive and the first is in the shifter: one bit there, a byte in the queue. -/
theorem test_lose_holds_bytes : Bus.lose ⟨[0xA5, 0x0F], [], [], false⟩ (List.replicate 7 false ++ List.replicate 9 true) false =
    ⟨[0x0F], [true], [], false⟩ := by decide
/-- O59: a window of 24 bits that is a frame, and one in flight that is none. -/
def window24 : State := { at_ .csOff with csN := false, dac := ⟨wireBits 0x101234#24, []⟩ }
theorem witness_O59 : window24.csN = false ∧ (∃ t, exec .csDeassert window24 = .next t ∧
    t.dac.received = [some 0x101234]) := ⟨by decide, _, rfl, by decide⟩
theorem witness_O59_in_flight : ∃ t, exec .csDeassert { midPush with st := .csOff } = .next t ∧ midPush.csN = false ∧
    midPush.bus.drained = false ∧ midPush.dac.window.length < 24 := ⟨_, rfl, by decide, by decide, by decide⟩
theorem witness_O59_opens : (∃ t, exec .csAssert (at_ .csOn) = .next t) ∧ (at_ .csOn).csN = true := ⟨⟨_, rfl⟩, by decide⟩
theorem witness_O59_shifts : (∃ t, step (moved .shift midPush) = .next t) ∧ (moved .shift midPush).env.move = .shift ∧
    (moved .shift midPush).csN = false ∧ (moved .shift State.reset).csN = true := ⟨⟨_, rfl⟩, by decide, by decide, by decide⟩

/-- O60: a reset in the middle of a request leaves `IDLE` with the pin low and a byte queued. -/
def resetMidway : State := { moved .configure State.reset with csN := false, busEn := true, bus := ⟨[0x12], [], wireBits 0x10#8, false⟩ }
theorem witness_O60_midway : resetMidway.env.move = .configure ∧ resetMidway.st = .idle ∧ resetMidway.faulted = false ∧
    resetMidway.trace = [] ∧ resetMidway.ctlInv := ⟨rfl, rfl, rfl, rfl, reset_ctlInv⟩
theorem witness_O60_no_effect : (moved .configure State.reset).cleanEntry ∧
    (moved .configure { resetMidway with trace := [.result .ok] }).trace ≠ [] ∧
    (moved .configure midPush).st ≠ .idle := by
  unfold State.cleanEntry
  decide
theorem test_configure_raises_the_pin : after resetMidway (fun t => (t.csN, t.busEn, t.bus.queue, t.dac.received)) =
    some (true, false, [], [none]) := by decide

end Sys2Proof.Machine.Tests
end

namespace Sys2Proof.Machine

/-! ## The control invariant, state by state -/

/-- Under a bound the wait in progress has a poll left (R80). -/
def State.pollsLeft (s : State) : Prop := ∀ n, s.cfg.waitBound = .atMost n → s.polls < n

/-- While INIT runs the frame is zero, and after its first `I_TX` an attempt is counted (R89, R90). -/
def State.initFrame (s : State) : Prop :=
  s.inInit = true → s.frame = ⟨0x00, 0x00, 0x00⟩ ∧ (s.st ≠ .iTx → 1 ≤ s.attempts)

/-- The part of the control invariant that is particular to the block state `w`. -/
def State.ctlAt (s : State) : St → Prop
  | .idle => s.inInit = false
  | .csOn | .en => s.cfg.variant = .polled ∧ s.outcome = .ok ∧ s.idx = 0
  | .txWait =>
    s.cfg.variant = .polled ∧ s.outcome = .ok ∧ s.idx ≠ 3 ∧ (s.cfg.pushMode = .packed → s.idx ≠ 1) ∧ s.pollsLeft
  | .push =>
    s.cfg.variant = .polled ∧ s.outcome = .ok ∧ s.idx ≠ 3 ∧ (s.cfg.pushMode = .packed → s.idx ≠ 1) ∧
    s.trace.getLast? = some (.pollTxe true)
  | .drainFifo | .drainBsy => s.cfg.variant = .polled ∧ s.outcome = .ok ∧ s.idx = 3 ∧ s.pollsLeft
  | .dis | .csOff =>
    s.cfg.variant = .polled ∧ (s.outcome = .ok ∨ s.outcome = .timeout) ∧
    (s.cfg.waitBound = .unbounded → s.outcome = .ok)
  | .bCsOn | .bSend => s.cfg.variant = .blocking ∧ s.outcome = .ok ∧ s.idx = 0
  | .bCsOff => s.cfg.variant = .blocking ∧ s.outcome ≠ .timeout ∧ s.idx = 0
  | .done =>
    (s.cfg.variant = .polled →
      (s.outcome = .ok ∨ s.outcome = .timeout) ∧ (s.cfg.waitBound = .unbounded → s.outcome = .ok)) ∧
    (s.cfg.variant = .blocking → s.outcome ≠ .timeout)
  | .iTx => s.inInit = true
  | .iDelay => s.inInit = true ∧ s.outcome = .busy ∧ s.cfg.variant = .blocking

/-- The control invariant is five facts, of which only `ctlAt` tells the block's states apart. -/
theorem ctlInv_iff (s : State) :
    s.ctlInv ↔ s.cfg.legal = true ∧ s.bus.shifter.length ≤ 8 ∧ (s.bus.sending = true → s.st = .bSend) ∧
      s.initFrame ∧ s.ctlAt s.st := by
  unfold State.ctlInv State.idxInv State.outcomeInv State.initInv State.initFrame State.ctlAt State.pollsLeft
  cases hs : s.st <;> simp [St.isPolled, St.isBlocking, St.isWait, St.beforeEnd] <;> tauto

/-- No step writes the configuration (R9–R15). -/
theorem StepTo.cfg_eq {s u : State} (h : StepTo s u) : u.cfg = s.cfg := by
  cases h <;> simp

/-! ## The blocking send and the shifter -/

@[simp] theorem State.issueSend_shifter (s : State) : s.issueSend.bus.shifter = s.bus.shifter := by
  unfold State.issueSend; split <;> rfl

@[simp] theorem State.abandonSend_shifter (s : State) : s.abandonSend.bus.shifter = s.bus.shifter := by
  unfold State.abandonSend; split <;> rfl

@[simp] theorem State.abandonSend_sending (s : State) : s.abandonSend.bus.sending = false := by
  unfold State.abandonSend; split <;> simp_all

@[simp] theorem State.applyReset_bus (s : State) : s.applyReset.bus = s.abandonSend.bus := rfl

@[simp] theorem State.sendReturn_sending (s : State) (r : SendResult) : (s.sendReturn r).bus.sending = false := rfl

@[simp] theorem State.sendReturn_shifter (s : State) (r : SendResult) :
    (s.sendReturn r).bus.shifter = if r = .ok then [] else s.bus.shifter := by
  cases r <;> rfl

theorem State.pushBytes_shifter_le {s : State} (bs : List Byte) (h : s.bus.shifter.length ≤ 8) :
    (s.pushBytes bs).bus.shifter.length ≤ 8 := by
  unfold State.pushBytes; dsimp only; split
  · exact h
  · exact lose_shifter_le ..

theorem State.disableBus_shifter_le {s : State} (h : s.bus.shifter.length ≤ 8) :
    s.disableBus.bus.shifter.length ≤ 8 := by
  unfold State.disableBus; dsimp only; split
  · exact h
  · exact lose_shifter_le ..

theorem State.csHigh_shifter_le {s : State} (h : s.bus.shifter.length ≤ 8) : s.csHigh.bus.shifter.length ≤ 8 := by
  unfold State.csHigh; split
  · exact h
  dsimp only; split
  · exact h
  · exact lose_shifter_le ..

/-- A shifting step takes one bit off the shifter, or fills it with one byte (R112). -/
theorem State.busShift_shifter_le {s : State} (h : s.bus.shifter.length ≤ 8) :
    s.busShift.bus.shifter.length ≤ 8 := by
  unfold State.busShift
  split
  · split
    · next hsh => simp [State.shiftOut, hsh] at h ⊢; omega
    · simp
    · exact h
  · exact h

/-- The shifter never holds more than one byte (R109). -/
theorem StepTo.shifter_le {s u : State} (h : StepTo s u) (hs : s.bus.shifter.length ≤ 8) :
    u.bus.shifter.length ≤ 8 := by
  cases h with
  | shift => exact State.busShift_shifter_le hs
  | boot => simp
  | pushHalf | pushByte => exact State.pushBytes_shifter_le _ hs
  | dis => exact State.disableBus_shifter_le hs
  | csOff => exact State.csHigh_shifter_le hs
  | sendReturned => simp only [State.sendReturn_shifter]; split <;> simp [hs]
  | _ => simpa using hs

/-- The blocking send is in progress only in `B_SEND` (R82): what issues it stays there, what leaves `B_SEND` ends it. -/
theorem StepTo.sending_only_bSend {s u : State} (h : StepTo s u) (hs : s.bus.sending = true → s.st = .bSend) :
    u.bus.sending = true → u.st = .bSend := by
  cases h with
  | reset | sendReturned => simp
  | sendHeld _ _ hb _ => simp [hb]
  | csOff _ _ hst => rcases hst with hst | hst <;> simp_all
  | _ => simp_all

/-! ## The rest of the invariant -/

/-- INIT's frame is zero and its attempts are counted (R89, R90); the requests taken in `IDLE` find `in_init = 0`. -/
theorem StepTo.initFrame {s u : State} (h : StepTo s u) (hi : s.initFrame) (hc : s.ctlAt s.st) : u.initFrame := by
  unfold State.initFrame at *
  cases h with
  | transmit _ _ _ hs => simp_all [State.ctlAt]
  | csOff _ _ hs => rcases hs with hs | hs <;> simp_all
  | _ => simp_all

theorem ctlAt_of_isWait {s : State} {w : St} (hw : w.isWait = true) (h : s.ctlAt w) :
    s.cfg.variant = .polled ∧ s.outcome = .ok ∧ s.pollsLeft := by
  cases w <;> simp_all [State.ctlAt, St.isWait]

/-- A not-ready answer leaves the wait with a poll left, or times out into `DIS` (R80). -/
theorem State.notReady_ctlAt {s : State} {w : St} (hw : w.isWait = true) (h : s.ctlAt w) :
    (s.notReady w).ctlAt (s.notReady w).st := by
  obtain ⟨hv, ho, hp⟩ := ctlAt_of_isWait hw h
  rcases notReady_cases s w with ⟨hb, he⟩ | ⟨n, hb, hn, he⟩ | ⟨n, hb, hn, he⟩ <;> rw [he]
  · exact h
  · exact ⟨hv, .inr rfl, by simp [hb]⟩
  · have hp' : ({ s with polls := s.polls + 1, st := w } : State).pollsLeft := by
      intro m hm
      obtain rfl : n = m := by simpa [hb] using hm
      have := hp n hb
      simp only; omega
    cases w <;> simp_all [State.ctlAt, St.isWait]

theorem pollsLeft_of_polls_zero {s : State} (hl : s.cfg.legal = true) (hp : s.polls = 0) : s.pollsLeft := by
  intro n hn
  have : 1 ≤ n := by simp_all [Config.legal, Bound.legal]
  omega

theorem State.afterTxe_ctlAt {s : State} {v : Bool} (h : s.ctlAt .txWait)
    (ht : s.trace.getLast? = some (.pollTxe v)) : (s.afterTxe v).ctlAt (s.afterTxe v).st := by
  cases v with
  | false => exact State.notReady_ctlAt rfl h
  | true =>
    obtain ⟨hv, ho, hi, hk, -⟩ := h
    exact ⟨hv, ho, hi, hk, ht⟩

theorem State.afterFtlvl_ctlAt {s : State} {n : FrameWord} (hl : s.cfg.legal = true) (h : s.ctlAt .drainFifo) :
    (s.afterFtlvl n).ctlAt (s.afterFtlvl n).st := by
  unfold State.afterFtlvl
  split
  · obtain ⟨hv, ho, hi, -⟩ := h
    exact ⟨hv, ho, hi, pollsLeft_of_polls_zero hl rfl⟩
  · exact State.notReady_ctlAt rfl h

theorem State.afterBsy_ctlAt {s : State} {b : Bool} (h : s.ctlAt .drainBsy) :
    (s.afterBsy b).ctlAt (s.afterBsy b).st := by
  cases b with
  | false =>
    obtain ⟨hv, ho, -, -⟩ := h
    exact ⟨hv, .inl ho, fun _ => ho⟩
  | true => exact State.notReady_ctlAt rfl h

theorem pushesPair_iff (s : State) : s.pushesPair = true ↔ s.cfg.pushMode = .packed ∧ s.idx.val < 2 := by
  have : 1 < s.remaining ↔ s.idx.val < 2 := by unfold State.remaining; omega
  simp [State.pushesPair, this]

/-- A pair is pushed from index 0, since under `PACKED` the index is even (R46, R74). -/
theorem idx_of_pushesPair {s : State} (hk : s.cfg.pushMode = .packed → s.idx ≠ 1) (hp : s.pushesPair = true) :
    s.idx = 0 := by
  obtain ⟨hm, hi⟩ := (pushesPair_iff s).1 hp
  have := hk hm
  omega

/-- Under `PACKED` a single byte is the last one (R74). -/
theorem idx_of_pushesByte {s : State} (hi : s.idx ≠ 3) (hp : s.pushesPair = false) (hm : s.cfg.pushMode = .packed) :
    s.idx = 2 := by
  have : ¬ s.idx.val < 2 := fun h => by simp [(pushesPair_iff s).2 ⟨hm, h⟩] at hp
  omega

/-- After a push of the bytes the state asks for (R74): the next wait, or the drain. -/
theorem State.afterPush_ctlAt {s : State} {k : Nat} (hl : s.cfg.legal = true) (hv : s.cfg.variant = .polled)
    (ho : s.outcome = .ok) (hk : s.cfg.pushMode = .packed → s.idxPlus k ≠ 1) :
    (s.afterPush k).ctlAt (s.afterPush k).st := by
  have hp : (s.afterPush k).pollsLeft := pollsLeft_of_polls_zero hl rfl
  by_cases hi : s.idxPlus k = 3
  · have hst : (s.afterPush k).st = .drainFifo := if_pos hi
    rw [hst]; exact ⟨hv, ho, hi, hp⟩
  · have hst : (s.afterPush k).st = .txWait := if_neg hi
    rw [hst]; exact ⟨hv, ho, hi, hk, hp⟩

/-- A transmit starts in its variant's first state with nothing pushed (R70, R90). -/
theorem ctlAt_firstSt {s t : State} (hcfg : t.cfg = s.cfg) (hi : t.idx = 0) (ho : t.outcome = .ok) :
    t.ctlAt s.firstSt := by
  cases hv : s.cfg.variant <;> simp [State.firstSt, hv, State.ctlAt, hcfg, hi, ho]

theorem sendOutcome_ne_timeout (r : SendResult) : sendOutcome r ≠ .timeout := by
  cases r <;> simp [sendOutcome]

theorem initAndBusy_of_retries {s : State} (h : s.retries = true) : s.inInit = true ∧ s.outcome = .busy := by
  simp only [State.retries, Bool.and_eq_true, decide_eq_true_eq] at h
  exact h.1

/-- Every step keeps the part of the invariant that its state names. -/
theorem StepTo.ctlAt {s u : State} (h : StepTo s u) (hl : s.cfg.legal = true) (hc : s.ctlAt s.st) : u.ctlAt u.st := by
  cases h with
  | reset => rfl
  | shift => simpa [State.ctlAt, State.pollsLeft] using hc
  | boot _ hs => simpa [hs, State.ctlAt] using hc
  | noBoot | quiescent | hold => exact hc
  | transmit => exact ctlAt_firstSt rfl rfl rfl
  | init => rfl
  | illegal | reentrant => exact hc
  | csOn _ _ hs =>
    rw [hs] at hc
    simpa [State.ctlAt] using hc
  | en _ _ hs =>
    rw [hs] at hc
    obtain ⟨hv, ho, hi⟩ := hc
    exact ⟨hv, ho, by simp [hi], by simp [hi], pollsLeft_of_polls_zero hl rfl⟩
  | txWait _ _ hs =>
    rw [hs] at hc
    exact State.afterTxe_ctlAt hc (by simp)
  | pushHalf _ _ hs x y hp =>
    rw [hs] at hc
    obtain ⟨hv, ho, hi, hk, -⟩ := hc
    have h0 := idx_of_pushesPair hk hp
    exact State.afterPush_ctlAt hl hv ho fun _ => by simp [State.idxPlus, h0]
  | pushByte _ _ hs x hp =>
    rw [hs] at hc
    obtain ⟨hv, ho, hi, hk, -⟩ := hc
    exact State.afterPush_ctlAt hl hv ho fun hm => by simp [State.idxPlus, idx_of_pushesByte hi hp hm]
  | drainFifo _ _ hs =>
    rw [hs] at hc
    exact State.afterFtlvl_ctlAt hl hc
  | drainBsy _ _ hs =>
    rw [hs] at hc
    exact State.afterBsy_ctlAt hc
  | dis _ _ hs =>
    rw [hs] at hc
    exact hc
  | csOff _ _ hs =>
    rcases hs with hs | hs <;> rw [hs] at hc
    · obtain ⟨hv, ho, hu⟩ := hc
      exact ⟨fun _ => by simpa using ⟨ho, hu⟩, fun hb => by simp [hv] at hb⟩
    · obtain ⟨hv, ho, -⟩ := hc
      exact ⟨fun hp => by simp [hv] at hp, fun _ => by simpa using ho⟩
  | bCsOn _ _ hs =>
    rw [hs] at hc
    simpa [State.ctlAt] using hc
  | sendHeld _ _ hs =>
    rw [hs] at hc
    simpa [State.ctlAt, hs] using hc
  | sendReturned _ _ hs r =>
    rw [hs] at hc
    obtain ⟨hv, ho, hi⟩ := hc
    exact ⟨by simpa, sendOutcome_ne_timeout r, by simpa⟩
  | retry _ _ hs hr =>
    rw [hs] at hc
    obtain ⟨hi, ho⟩ := initAndBusy_of_retries hr
    cases hv : s.cfg.variant <;> simp_all [State.ctlAt]
  | report => rfl
  | attempt => exact ctlAt_firstSt rfl rfl rfl
  | delay _ _ hs =>
    rw [hs] at hc
    exact hc.1

/-- Every step keeps the control invariant. -/
theorem StepTo.ctlInv {s u : State} (h : StepTo s u) (hs : s.ctlInv) : u.ctlInv := by
  obtain ⟨hl, hsh, hsend, hinit, hat⟩ := (ctlInv_iff s).1 hs
  exact (ctlInv_iff u).2 ⟨by rw [h.cfg_eq, hl], h.shifter_le hsh, h.sending_only_bSend hsend, h.initFrame hinit hat,
    h.ctlAt hl hat⟩

/-- The control invariant reads neither the inputs nor their count. -/
theorem State.draw_ctlInv {s : State} (h : s.ctlInv) : s.draw.ctlInv := h

/-- Settles O47: the only step with no next state is a push with `idx = 3`, which the invariant excludes; what a step
leaves keeps the invariant case by case. -/
theorem blockAlwaysSteps : Obligations.BlockAlwaysSteps := by
  intro s hs
  rcases step_cases s with ⟨u, hu, h⟩ | ⟨-, -, hst, hi, -⟩
  · exact ⟨u.draw, h, State.draw_ctlInv (hu.ctlInv hs)⟩
  · obtain ⟨-, -, -, -, hat⟩ := (ctlInv_iff s).1 hs
    rw [hst] at hat
    obtain ⟨-, -, hne, -, -⟩ := hat
    exact absurd hi hne

/-! ## A bounded POLLED transmit ends -/

/-- A not-ready answer uses up one poll of the wait, or ends it (R80). -/
theorem State.notReady_stepsLeft_lt {s : State} {w : St} {n : Nat} (hw : w.isWait = true) (hs : s.st = w)
    (hb : s.cfg.waitBound = .atMost n) (hp : s.polls < n) :
    (s.notReady w).stepsLeft n < s.stepsLeft n ∧ (s.notReady w).st.isPolled = true := by
  rcases notReady_cases s w with ⟨hu, -⟩ | ⟨m, hm, hn, he⟩ | ⟨m, hm, hn, he⟩
  · simp [hb] at hu
  · rw [he]
    cases w <;> simp_all [State.stepsLeft, St.isWait, St.isPolled] <;> omega
  · rw [he]
    cases w <;> simp_all [State.stepsLeft, St.isWait, St.isPolled, State.remaining] <;> omega

/-- A push leaves fewer bytes, and the wait it starts costs less than the byte did (R74). -/
theorem State.afterPush_stepsLeft_lt {s : State} {k n : Nat} (hs : s.st = .push) (hk : 1 ≤ k) (hle : s.idx.val + k ≤ 3) :
    (s.afterPush k).stepsLeft n < s.stepsLeft n ∧ (s.afterPush k).st.isPolled = true := by
  have hi : (s.idxPlus k).val = s.idx.val + k := Nat.mod_eq_of_lt (by omega)
  by_cases h3 : s.idxPlus k = 3
  · have hst : (s.afterPush k).st = .drainFifo := if_pos h3
    simp [State.stepsLeft, hst, hs, St.isPolled]
    omega
  · have hst : (s.afterPush k).st = .txWait := if_neg h3
    have hmul : (3 - (s.idx.val + k) - 1 + 1) * (n + 2) ≤ (3 - s.idx.val - 1) * (n + 2) :=
      Nat.mul_le_mul_right _ (by omega)
    rw [Nat.succ_mul] at hmul
    simp [State.stepsLeft, State.remaining, hst, hs, hi, St.isPolled]
    omega

/-- The count's bound: at most two more bytes wait behind the one in hand. -/
theorem stepsLeft_le (s : State) (n : Nat) : s.stepsLeft n ≤ 8 + 2 * n + 3 * (n + 2) := by
  have hr : (s.remaining - 1) * (n + 2) ≤ 2 * (n + 2) := Nat.mul_le_mul_right _ (by unfold State.remaining; omega)
  unfold State.stepsLeft
  cases s.st <;> simp only <;> omega

/-- The block's step in a bounded POLLED transmit leads to a later part of it, or uses up a poll. -/
theorem StepTo.stepsLeft_lt {s u : State} {n : Nat} (h : StepTo s u) (hm : s.env.move = .block)
    (hf : s.faulted = false) (hp : s.st.isPolled = true) (hb : s.cfg.waitBound = .atMost n) (hat : s.ctlAt s.st) :
    u.stepsLeft n < s.stepsLeft n ∧ (u.st.isPolled = true ∨ u.st = .done) := by
  cases h with
  | csOn _ _ hs => exact ⟨by simp [State.stepsLeft, hs], .inl rfl⟩
  | en _ _ hs =>
    rw [hs] at hat
    obtain ⟨-, -, hi⟩ := hat
    exact ⟨by simp [State.stepsLeft, State.remaining, hs, hi]; omega, .inl rfl⟩
  | txWait _ _ hs =>
    rw [hs] at hat
    obtain ⟨-, -, -, -, hleft⟩ := hat
    cases s.env.txe with
    | true => exact ⟨by simp [State.stepsLeft, State.remaining, State.afterTxe, hs]; omega, .inl rfl⟩
    | false => exact (State.notReady_stepsLeft_lt (s := s.emit (.pollTxe false)) rfl hs hb (hleft n hb)).imp_right .inl
  | pushHalf _ _ hs x y hpair =>
    have hlt := ((pushesPair_iff s).1 hpair).2
    exact (State.afterPush_stepsLeft_lt hs (by omega) (by simpa using by omega)).imp_right .inl
  | pushByte _ _ hs =>
    rw [hs] at hat
    obtain ⟨-, -, hi, -, -⟩ := hat
    exact (State.afterPush_stepsLeft_lt hs (by omega) (by simpa using by omega)).imp_right .inl
  | drainFifo _ _ hs =>
    rw [hs] at hat
    obtain ⟨-, -, -, hleft⟩ := hat
    have hlt := hleft n hb
    by_cases h0 : s.ftlvlAnswer = 0
    · rw [h0]
      exact ⟨by simp [State.stepsLeft, State.afterFtlvl, hs]; omega, .inl rfl⟩
    · rw [State.afterFtlvl, if_neg h0]
      exact (State.notReady_stepsLeft_lt (s := s.emit (.pollFtlvl _)) rfl hs hb hlt).imp_right .inl
  | drainBsy _ _ hs =>
    rw [hs] at hat
    obtain ⟨-, -, -, hleft⟩ := hat
    cases s.env.bsy with
    | false => exact ⟨by simp [State.stepsLeft, State.afterBsy, hs]; omega, .inl rfl⟩
    | true => exact (State.notReady_stepsLeft_lt (s := s.emit (.pollBsy true)) rfl hs hb (hleft n hb)).imp_right .inl
  | dis _ _ hs => exact ⟨by simp [State.stepsLeft, hs], .inl rfl⟩
  | csOff _ _ hs => rcases hs with hs | hs <;> simp_all [State.stepsLeft, St.isPolled]
  | _ => simp_all [St.isPolled]

/-- Settles O52: the invariant gives the step, and each step of a POLLED transmit lowers the count. -/
theorem boundedTransmitEnds : Obligations.BoundedTransmitEnds := by
  intro s n hc hb hp hf hm
  obtain ⟨-, -, -, -, hat⟩ := (ctlInv_iff s).1 hc
  obtain ⟨t, ht, -⟩ := blockAlwaysSteps s hc
  obtain ⟨u, hu, rfl⟩ := stepTo_of_step ht
  obtain ⟨hlt, hst⟩ := hu.stepsLeft_lt hm hf hp hb hat
  exact ⟨u.draw, ht, hlt, hst, stepsLeft_le s n⟩

end Sys2Proof.Machine

namespace Sys2Proof

/-! ## Words and their fields -/

@[simp] theorem frameWordCmd_append (cmd : Byte) (code : Code) : frameWordCmd (cmd ++ code) = cmd :=
  BitVec.extractLsb'_append_eq_left

@[simp] theorem frameWordCode_append (cmd : Byte) (code : Code) : frameWordCode (cmd ++ code) = code :=
  BitVec.extractLsb'_append_eq_right

theorem frameWord_of_fields (f : FrameWord) : frameWordCmd f ++ frameWordCode f = f :=
  (BitVec.extractLsb'_append_extractLsb'_eq_extractLsb' rfl).trans BitVec.extractLsb'_eq_self

theorem word_of_fields (w : Word) : wordOp w ++ wordPayload w = w :=
  (BitVec.extractLsb'_append_extractLsb'_eq_extractLsb' rfl).trans BitVec.extractLsb'_eq_self

/-- The REQ32 word of a TRANSMIT is its frame word under the op `0x01` (R56, R60). -/
theorem transmitWord_eq (cmd : Byte) (code : Code) : transmitWord cmd code = 0x01#8 ++ frameWordOf cmd code :=
  BitVec.append_assoc

/-- A word of op `0x01` decodes to the TRANSMIT of the command byte and code of its low 24 bits (R60, R61). -/
theorem decodeReq_op_one (f : FrameWord) :
    decodeReq (0x01#8 ++ f) = .transmit (frameWordCmd f) (frameWordCode f) := by
  have hop : wordOp (0x01#8 ++ f) = 0x01 := BitVec.extractLsb'_append_eq_left
  have hcmd : wordCmd (0x01#8 ++ f) = frameWordCmd f := BitVec.extractLsb'_append_eq_of_add_le (by decide)
  have hcode : wordCode (0x01#8 ++ f) = frameWordCode f := BitVec.extractLsb'_append_eq_of_add_le (by decide)
  rw [decodeReq, if_pos hop, hcmd, hcode]

@[simp] theorem decodeReq_transmitWord (cmd : Byte) (code : Code) :
    decodeReq (transmitWord cmd code) = .transmit cmd code := by
  rw [transmitWord_eq, decodeReq_op_one, frameWordOf, frameWordCmd_append, frameWordCode_append]

/-- A word that spells no request is ILLEGAL (R61, R62). -/
theorem decodeReq_illegal {w : Word} (h : w.spellsRequest = false) : decodeReq w = .illegalRequest w := by
  simp only [Word.spellsRequest, Bool.or_eq_false_iff, beq_eq_false_iff_ne] at h
  obtain ⟨hop, hinit⟩ : wordOp w ≠ 0x01 ∧ w ≠ 0x02000000 := h
  have hne : ¬ (wordOp w = 0x02 ∧ wordPayload w = 0) := by
    rintro ⟨h2, h0⟩
    rw [← word_of_fields w, h2, h0] at hinit
    exact hinit rfl
  rw [decodeReq, if_neg hop, if_neg hne]

theorem decodeFrame_other {cmd : Byte} (code : Code) (h : Byte.isDefinedCommand cmd = false) :
    decodeFrame (cmd ++ code) = .frameOther cmd code := by
  simp only [Byte.isDefinedCommand, Bool.or_eq_false_iff, beq_eq_false_iff_ne] at h
  simp [decodeFrame, h]

/-- A TRANSMIT word presented under the row of its frame runs as the frame decodes (R66; log 8). -/
theorem decodeRequest_asFrame (f : FrameWord) : decodeRequest ⟨0x01#8 ++ f, true⟩ = decodeFrame f := by
  simp only [decodeRequest, decodeReq_op_one, frameWord_of_fields]

theorem decodeRequest_plain (w : Word) : decodeRequest ⟨w, false⟩ = decodeReq w := rfl

theorem decodeRequest_frame (cmd : Byte) (code : Code) :
    decodeRequest ⟨transmitWord cmd code, true⟩ = decodeFrame (cmd ++ code) := by
  rw [transmitWord_eq, decodeRequest_asFrame, frameWordOf]

end Sys2Proof

namespace Sys2Proof.Machine

/-! ## What a placed instruction fetches -/

theorem fetch_request {s : State} {r : Request} (h : s.env.move = .request r) : s.fetch = some (decodeRequest r) := by
  simp [State.fetch, h]

theorem fetch_block {s : State} (hm : s.env.move = .block) (hf : s.faults = FaultSet.none) : s.fetch = s.ownOp := by
  have hnf : s.faulted = false := by rw [State.faulted, hf]; rfl
  simp [State.fetch, hm, hnf]

/-- An answer of `FTLVL_WIDTH` bits is read whole (R44). -/
theorem ftlvlAnswer_of_fits {s : State} (h : s.cfg.ftlvlFits s.env.ftlvl = true) : s.ftlvlAnswer = s.env.ftlvl := by
  have hlt : s.env.ftlvl.toNat < 2 ^ s.cfg.ftlvlWidth.val := by simpa [Config.ftlvlFits] using h
  rw [State.ftlvlAnswer, Nat.mod_eq_of_lt hlt, BitVec.ofNat_toNat, BitVec.setWidth_eq]

theorem Frame.word_of_extracts (f : FrameWord) :
    Frame.word ⟨f.extractLsb' 16 8, f.extractLsb' 8 8, f.extractLsb' 0 8⟩ = f := by
  have hhigh : f.extractLsb' 16 8 ++ f.extractLsb' 8 8 = f.extractLsb' 8 16 :=
    BitVec.extractLsb'_append_extractLsb'_eq_extractLsb' rfl
  rw [Frame.word, hhigh]
  exact (BitVec.extractLsb'_append_extractLsb'_eq_extractLsb' rfl).trans BitVec.extractLsb'_eq_self

/-- Settles O44, row by row: a request row by decoding the word on the port, an event row by the operation of the block's
state. -/
theorem placedInstructionIsFetched : Obligations.PlacedInstructionIsFetched := by
  intro s i hwf
  cases i with
  | transmit cmd code => rw [fetch_request rfl, decodeRequest_plain, decodeReq_transmitWord]
  | init => rfl
  | illegalRequest w => rw [fetch_request rfl, decodeRequest_plain, decodeReq_illegal (by simpa [Instr.wf] using hwf)]
  | wrbufA code | wrbufB code | wrldA code | wrldB code | wrbufBWrldA code | wrldAWrldB code =>
    rw [fetch_request rfl, decodeRequest_frame]
    simp [decodeFrame]
  | frameOther cmd code =>
    rw [fetch_request rfl, decodeRequest_frame, decodeFrame_other code (by simpa [Instr.wf] using hwf)]
  | pollFtlvl n =>
    rw [fetch_block rfl rfl]
    exact congrArg (fun a => some (Instr.pollFtlvl a))
      (ftlvlAnswer_of_fits (s := s.withInstr (.pollFtlvl n)) hwf)
  | send3 f =>
    rw [fetch_block rfl rfl]
    exact congrArg (fun a => some (Instr.send3 a)) (Frame.word_of_extracts f)
  | csAssert | csDeassert | busEnable | busDisable | pollTxe | pollBsy | pushByte | pushHalf | delay | result => rfl

/-! ## What a step runs -/

/-- Settles O43: the three turns that fetch an instruction, by what each fetches. -/
theorem stepRunsTheDecodedInstruction : Obligations.StepRunsTheDecodedInstruction := by
  refine ⟨fun s w i hm hd => ?_, fun s f i hm hd => ?_, fun _ _ => step_ownOp, fun _ => rfl, fun _ => rfl, fun _ => rfl⟩
  · obtain rfl : decodeReq w = i := Except.ok.inj hd
    rw [step_request hm, decodeRequest_plain]
  · obtain rfl : decodeFrame f = i := Except.ok.inj hd
    rw [step_request hm, decodeRequest_asFrame]

/-- Settles O45: `IDLE` has no operation of its own, and a send already issued emits nothing again. -/
theorem holdsMoveOnlyTheEnvironment : Obligations.HoldsMoveOnlyTheEnvironment := by
  intro s hf hm hst
  rcases hst with hs | ⟨hs, hsend, hnone⟩
  · exact step_idle hm hf hs
  · have hissue : s.issueSend = s := if_pos hsend
    rcases step_bSend hm hf hs with ⟨-, h⟩ | ⟨r, hr, -⟩
    · rw [h, hissue]
    · simp [hnone] at hr

/-- Settles O46: of all steps only the push past the frame gives no next state. -/
theorem stepNeverRefuses : Obligations.StepNeverRefuses := by
  intro s
  rcases step_cases s with ⟨u, -, h⟩ | ⟨hm, -, hs, hi, h⟩
  · simp [h]
  · rw [h]
    exact ⟨by simp, fun f hf => ⟨(Host.Outcome.fault.inj hf).symm, hs, hi, hm⟩⟩

/-! ## The trace grows by one event at most -/

theorem State.issueSend_trace (s : State) :
    s.issueSend.trace = if s.bus.sending then s.trace else s.trace ++ [.send3 s.frame.word] := by
  unfold State.issueSend; split <;> rfl

/-- Every step but a reset appends nothing or one event (R33). -/
theorem StepTo.trace_append {s u : State} (h : StepTo s u) (hm : s.env.move ≠ .reset) :
    ∃ es, u.trace = s.trace ++ es ∧ es.length ≤ 1 := by
  have hsend : ∃ es, s.issueSend.trace = s.trace ++ es ∧ es.length ≤ 1 := by
    rw [State.issueSend_trace]
    split
    · exact ⟨[], by simp⟩
    · exact ⟨[_], rfl, le_rfl⟩
  cases h with
  | reset hr => exact absurd hr hm
  | csOn | en | txWait | pushHalf | pushByte | drainFifo | drainBsy | dis | csOff | bCsOn | report | delay =>
    exact ⟨[_], by simp; rfl, le_rfl⟩
  | sendHeld => exact hsend
  | sendReturned => simpa using hsend
  | _ => exact ⟨[], by simp⟩

/-- Settles O36: a reset empties the trace, every other step extends it. -/
theorem traceIsAppendOnly : Obligations.TraceIsAppendOnly := by
  intro s t h
  constructor
  · intro hm
    obtain ⟨u, hu, rfl⟩ := stepTo_of_step h
    exact hu.trace_append hm
  · intro hm
    rw [step_reset hm] at h
    obtain rfl := Host.Outcome.next.inj h
    rfl

end Sys2Proof.Machine

namespace Sys2Proof.Machine

/-! ## The control invariant -/

/-- Settles O48: whatever step it was, `StepTo.ctlInv` keeps the invariant, and drawing the next inputs does not touch it. -/
theorem controlInvariantKept : Obligations.ControlInvariantKept := by
  intro s t hs h
  obtain ⟨u, hu, rfl⟩ := stepTo_of_step h
  exact State.draw_ctlInv (hu.ctlInv hs)

/-! ## Which steps write an element of the tuple -/

/-- Only a reset empties the fault set and only a request presented adds to it, one name at a time (R30). -/
theorem StepTo.faults_writer {s u : State} (h : StepTo s u) (hne : u.faults ≠ s.faults) :
    s.env.move = .reset ∨ ((∃ r, s.env.move = .request r) ∧ ∃ f, u.faults = s.faults.add f) := by
  cases h with
  | reset hm => exact .inl hm
  | illegal r hm => exact .inr ⟨⟨r, hm⟩, .illegalRequest, rfl⟩
  | reentrant r hm => exact .inr ⟨⟨r, hm⟩, .reentrantRequest, rfl⟩
  | _ => exact absurd (by simp) hne

/-- Adding a name keeps the names recorded and sets one of the two (R30). -/
theorem FaultSet.add_spec (f : FaultSet) (n : FaultName) :
    (f.reentrantRequest = true → (f.add n).reentrantRequest = true) ∧
    (f.illegalRequest = true → (f.add n).illegalRequest = true) ∧
    (f.add n = { f with reentrantRequest := true } ∨ f.add n = { f with illegalRequest := true }) := by
  cases n with
  | reentrantRequest => exact ⟨fun _ => rfl, id, .inl rfl⟩
  | illegalRequest => exact ⟨id, fun _ => rfl, .inr rfl⟩

/-- Settles O17: a step leaves the fault set, or a request presented adds one name to it; a reset empties it. -/
theorem faultsAreSticky : Obligations.FaultsAreSticky := by
  refine ⟨fun s t h hm => ?_, fun s t h hm => ?_, rfl⟩
  · obtain ⟨u, hu, rfl⟩ := stepTo_of_step h
    rw [State.draw_faults]
    by_cases hne : u.faults = s.faults
    · exact ⟨by simp [hne], by simp [hne], absurd hne⟩
    · obtain ⟨hr, f, hf⟩ := (hu.faults_writer hne).resolve_left hm
      obtain ⟨hre, hil, hone⟩ := s.faults.add_spec f
      rw [hf]
      exact ⟨hre, hil, fun _ => ⟨hr, hone⟩⟩
  · rw [step_reset hm] at h
    obtain rfl := Host.Outcome.next.inj h
    rfl

/-- Besides the platform only `CS_ON`, `B_CS_ON`, `CS_OFF` and `B_CS_OFF` drive the pin (R27). -/
theorem StepTo.csN_writer {s u : State} (h : StepTo s u) (hm : s.env.move ≠ .configure) (hne : u.csN ≠ s.csN) :
    ((s.st = .csOn ∨ s.st = .bCsOn) ∧ u.csN = false ∧ u.trace = s.trace ++ [.csAssert]) ∨
    ((s.st = .csOff ∨ s.st = .bCsOff) ∧ u.csN = true ∧ u.trace = s.trace ++ [.csDeassert]) := by
  cases h with
  | boot hc => exact absurd hc hm
  | csOn _ _ hs => exact .inl ⟨.inl hs, by simp⟩
  | bCsOn _ _ hs => exact .inl ⟨.inr hs, by simp⟩
  | csOff _ _ hs => exact .inr ⟨hs, by simp⟩
  | _ => exact absurd (by simp) hne

/-- Settles O37: no other step writes `cs_n`, a reset among them. -/
theorem onlyChipSelectStepsDriveThePin : Obligations.OnlyChipSelectStepsDriveThePin := by
  intro s t h hm hne
  obtain ⟨u, hu, rfl⟩ := stepTo_of_step h
  exact hu.csN_writer hm hne

/-- Besides the platform only `EN`, `DIS`, a blocking send that returns and a reset that abandons one write the enable bit
(R28, R134). -/
theorem StepTo.busEn_writer {s u : State} (h : StepTo s u) (hm : s.env.move ≠ .configure) (hne : u.busEn ≠ s.busEn) :
    (s.st = .en ∧ u.busEn = true ∧ u.trace = s.trace ++ [.busEnable]) ∨
    (s.st = .dis ∧ u.busEn = false ∧ u.trace = s.trace ++ [.busDisable]) ∨
    (s.st = .bSend ∧ u.st = .bCsOff) ∨
    (s.env.move = .reset ∧ s.bus.sending = true ∧ u.bus.sending = false) := by
  cases h with
  | reset hr =>
    have hsend : s.bus.sending = true := by
      by_contra hns
      exact hne (by simp [hns])
    exact .inr (.inr (.inr ⟨hr, hsend, by simp⟩))
  | boot hc => exact absurd hc hm
  | en _ _ hs => exact .inl ⟨hs, rfl, rfl⟩
  | dis _ _ hs => exact .inr (.inl ⟨hs, rfl, rfl⟩)
  | sendReturned _ _ hs => exact .inr (.inr (.inl ⟨hs, rfl⟩))
  | _ => exact absurd (by simp) hne

/-- Settles O38: no other step writes `bus_en`. -/
theorem onlyEnableStepsWriteTheEnableBit : Obligations.OnlyEnableStepsWriteTheEnableBit := by
  intro s t h hm hne
  obtain ⟨u, hu, rfl⟩ := stepTo_of_step h
  exact hu.busEn_writer hm hne

/-- Besides a reset only the acceptance of a request and `I_TX` write the frame buffer (R23, R70, R89, R90). -/
theorem StepTo.frame_writer {s u : State} (h : StepTo s u) (hm : s.env.move ≠ .reset) (hne : u.frame ≠ s.frame) :
    (∃ r, s.env.move = .request r ∧ s.st = .idle ∧ s.faulted = false ∧
      ((∃ c k, decodeReq r.word = .transmit c k ∧ u.frame = frameOf c k ∧ u.st = s.firstSt) ∨
        (decodeReq r.word = .init ∧ u.frame = ⟨0x00, 0x00, 0x00⟩ ∧ u.st = .iTx))) ∨
    (s.env.move = .block ∧ s.st = .iTx ∧ u.frame = ⟨0x00, 0x00, 0x00⟩) := by
  cases h with
  | reset hr => exact absurd hr hm
  | transmit r hq hf hs c k hd => exact .inl ⟨r, hq, hs, hf, .inl ⟨c, k, hd, rfl, rfl⟩⟩
  | init r hq hd hf hs => exact .inl ⟨r, hq, hs, hf, .inr ⟨hd, rfl, rfl⟩⟩
  | attempt hb _ hs => exact .inr ⟨hb, hs, rfl⟩
  | _ => exact absurd (by simp) hne

/-- Settles O39: no step writes `cfg`, and only the three writers write `frame`. -/
theorem frameBufferWriters : Obligations.FrameBufferWriters := by
  intro s t h
  obtain ⟨u, hu, rfl⟩ := stepTo_of_step h
  exact ⟨hu.cfg_eq, hu.frame_writer⟩

/-- Besides a reset only the acceptance of INIT and its RESULT write `in_init` (R29). -/
theorem StepTo.inInit_writer {s u : State} (h : StepTo s u) (hm : s.env.move ≠ .reset) (hne : u.inInit ≠ s.inInit) :
    (u.inInit = true ∧ (∃ r, s.env.move = .request r ∧ decodeReq r.word = .init) ∧ s.st = .idle ∧ u.attempts = 0) ∨
    (u.inInit = false ∧ s.st = .done ∧ u.trace = s.trace ++ [.result s.outcome]) := by
  cases h with
  | reset hr => exact absurd hr hm
  | init r hq hd _ hs => exact .inl ⟨rfl, ⟨r, hq, hd⟩, hs, rfl⟩
  | report _ _ hs => exact .inr ⟨rfl, hs, rfl⟩
  | _ => exact absurd (by simp) hne

/-- Besides a reset only the acceptance of INIT and `I_TX` write the attempt counter (R31, R89, R90). -/
theorem StepTo.attempts_writer {s u : State} (h : StepTo s u) (hm : s.env.move ≠ .reset)
    (hne : u.attempts ≠ s.attempts) :
    (s.st = .idle ∧ u.st = .iTx ∧ u.attempts = 0) ∨ (s.st = .iTx ∧ u.attempts = s.attempts + 1) := by
  cases h with
  | reset hr => exact absurd hr hm
  | init _ _ _ _ hs => exact .inl ⟨hs, rfl, rfl⟩
  | attempt _ _ hs => exact .inr ⟨hs, rfl⟩
  | _ => exact absurd (by simp) hne

/-- Settles O40: `in_init` rises by its one setter, falls by its one clearer, and `attempts` has the two writers. -/
theorem attemptCounterAndInitFlag : Obligations.AttemptCounterAndInitFlag := by
  intro s t h hm
  obtain ⟨u, hu, rfl⟩ := stepTo_of_step h
  refine ⟨fun hs (ht : u.inInit = true) => ?_, fun hs (ht : u.inInit = false) => ?_, hu.attempts_writer hm⟩
  · rcases hu.inInit_writer hm (by simp [hs, ht]) with ⟨-, hset⟩ | ⟨hclear, -⟩
    · exact hset
    · simp [ht] at hclear
  · rcases hu.inInit_writer hm (by simp [hs, ht]) with ⟨hset, -⟩ | ⟨-, hclear⟩
    · simp [ht] at hset
    · exact hclear

end Sys2Proof.Machine

namespace Sys2Proof.Machine

/-! ## A push past the frame -/

/-- Settles O25: the fault comes before the guard, and the invariant keeps `idx` below 3 in `PUSH`. -/
theorem pushPastTheFrameFaults : Obligations.PushPastTheFrameFaults := by
  refine ⟨fun s x hf hs hi => if_pos ⟨hs, hi, by simp [hf]⟩, ?_⟩
  rintro s hc ⟨hs, hi⟩
  obtain ⟨-, -, -, -, hat⟩ := (ctlInv_iff s).1 hc
  rw [hs] at hat
  obtain ⟨-, -, hne, -, -⟩ := hat
  exact hne hi

/-! ## The frame and its bits -/

/-- The frame word is `c ++ k` (R56). -/
theorem frameOf_word (cmd : Byte) (code : Code) : (frameOf cmd code).word = cmd ++ code := by
  have hcode : code.extractLsb' 8 8 ++ code.extractLsb' 0 8 = code :=
    (BitVec.extractLsb'_append_extractLsb'_eq_extractLsb' rfl).trans BitVec.extractLsb'_eq_self
  rw [Frame.word, BitVec.append_assoc]
  exact congrArg (cmd ++ ·) hcode

/-- Settles O7: the bytes are fields of the code, so no value above `0xFF` arises, and put together they are the code. -/
theorem frameAssembly : Obligations.FrameAssembly := by
  refine ⟨fun c k => ?_, fun c => ⟨rfl, rfl⟩, rfl⟩
  have hhigh : (frameOf c k).b1.toNat = (k >>> 8).toNat := by
    simp [frameOf, BitVec.extractLsb'_toNat]
    omega
  have hlow : (frameOf c k).b2.toNat = (k &&& 0xFF).toNat := by
    simp [frameOf, BitVec.extractLsb'_toNat, Nat.and_two_pow_sub_one_eq_mod k.toNat 8]
  have hword := frameOf_word c k
  refine ⟨rfl, hhigh, rfl, hlow, rfl, ?_, ?_, hword, ?_, ?_⟩
  · rw [← hhigh]; omega
  · rw [← hlow]; omega
  · rw [hword]; exact frameWordCmd_append c k
  · rw [hword]; exact frameWordCode_append c k

/-- The bits of two words side by side are the bits of the left one, then those of the right one (R42). -/
theorem wireBits_append {m n : Nat} (x : BitVec m) (y : BitVec n) : wireBits (x ++ y) = wireBits x ++ wireBits y := by
  refine List.ext_getElem (by simp) fun i _ _ => ?_
  by_cases hi : i < m <;> simp [wireBits, BitVec.getMsbD_append, hi, Nat.not_le_of_lt, Nat.le_of_not_lt]

theorem wireBits_getElem? {n : Nat} (v : BitVec n) {k : Nat} (hk : k < n) :
    (wireBits v)[k]? = some (v.getLsbD (n - 1 - k)) := by
  simp [wireBits, BitVec.getMsbD, hk]

theorem wordOfWire_concat (bits : List Bool) (b : Bool) :
    wordOfWire (bits ++ [b]) = wordOfWire bits <<< 1 ||| bitPayload b := by
  simp [wordOfWire]

theorem bitPayload_getElem (b : Bool) {i : Nat} (hi : i < 24) : (bitPayload b)[i] = (decide (i = 0) && b) := by
  cases b <;> simp [bitPayload]

/-- Reading wire bit `k` after the `k` bits before it gives the `k + 1` high bits of the word (R117). -/
theorem shiftIn_getMsbD (f : FrameWord) {k : Nat} (hk : k < 24) :
    f >>> (24 - k) <<< 1 ||| bitPayload (f.getMsbD k) = f >>> (23 - k) := by
  apply BitVec.eq_of_getLsbD_eq
  rintro (_ | i) hi
  · simp [bitPayload_getElem, BitVec.getMsbD, hk]
  · have hpos : 24 - k + i = 23 - k + (i + 1) := by omega
    simp [bitPayload_getElem, hi, hpos]

/-- Reading the wire bits of a word back gives the word (R42, R117). -/
theorem wordOfWire_wireBits (f : FrameWord) : wordOfWire (wireBits f) = f := by
  have hread : ∀ k, k ≤ 24 → wordOfWire ((List.range k).map fun i => f.getMsbD i) = f >>> (24 - k) := by
    intro k hk
    induction k with
    | zero => exact (BitVec.ushiftRight_eq_zero le_rfl).symm
    | succ k ih =>
      rw [List.range_succ, List.map_append, List.map_singleton, wordOfWire_concat, ih (by omega), shiftIn_getMsbD f hk,
        show 24 - (k + 1) = 23 - k by omega]
  exact hread 24 le_rfl

/-- Settles O8: the bytes side by side are F, whose wire bits are its bits from the top. -/
theorem wireBitOrder : Obligations.WireBitOrder := by
  intro f
  refine ⟨?_, wireBits_length _, fun k hk => wireBits_getElem? _ (by omega), rfl, wordOfWire_wireBits _⟩
  rw [Frame.word, wireBits_append, wireBits_append]
  simp [wireBitsOf]

/-! ## What each interface operation writes -/

/-- An operation issued leaves what its rule says (R35). -/
theorem eq_of_issue {s a t : State} {p : Prop} [Decidable p] (h : s.issue p a = .next t) : t = a :=
  ((issue_eq_next_iff s p a t).1 h).2.2.symm

theorem exec_pollFtlvl_eq_next {n : FrameWord} {s t : State} (h : exec (.pollFtlvl n) s = .next t) :
    t = (s.emit (.pollFtlvl n)).afterFtlvl n := by
  have h' : execPollFtlvl n s = .next t := h
  unfold execPollFtlvl at h'
  split at h'
  · exact eq_of_issue h'
  · simp at h'

theorem exec_pushByte_eq_next {b : Byte} {s t : State} (h : exec (.pushByte b) s = .next t) :
    t = ((s.pushBytes [b]).emit (.pushByte b)).afterPush 1 := by
  have h' : execPushByte b s = .next t := h
  unfold execPushByte at h'
  split at h'
  · simp at h'
  · exact eq_of_issue h'

/-- A not-ready answer writes `polls`, `outcome` and `st` alone (R80). -/
theorem notReady_writes (s : State) (w : St) :
    s.notReady w = { s with polls := (s.notReady w).polls, outcome := (s.notReady w).outcome, st := (s.notReady w).st } := by
  rcases notReady_cases s w with ⟨-, h⟩ | ⟨-, -, -, h⟩ | ⟨-, -, -, h⟩ <;> rw [h]

theorem afterTxe_writes (s : State) (v : Bool) :
    s.afterTxe v = { s with polls := (s.afterTxe v).polls, outcome := (s.afterTxe v).outcome, st := (s.afterTxe v).st } := by
  cases v with
  | true => rfl
  | false => exact notReady_writes s .txWait

theorem afterFtlvl_writes (s : State) (n : FrameWord) :
    s.afterFtlvl n =
      { s with polls := (s.afterFtlvl n).polls, outcome := (s.afterFtlvl n).outcome, st := (s.afterFtlvl n).st } := by
  unfold State.afterFtlvl
  split
  · rfl
  · exact notReady_writes s .drainFifo

theorem afterBsy_writes (s : State) (b : Bool) :
    s.afterBsy b = { s with polls := (s.afterBsy b).polls, outcome := (s.afterBsy b).outcome, st := (s.afterBsy b).st } := by
  cases b with
  | true => exact notReady_writes s .drainBsy
  | false => rfl

/-- The call's issue writes the bus's `sending` and the trace alone (R104). -/
theorem issueSend_writes (s : State) : s.issueSend = { s with bus := s.issueSend.bus, trace := s.issueSend.trace } := by
  unfold State.issueSend; split <;> rfl

/-- The call's return writes what it left: outcome, `bus_en`, bus and DAC (R82, R116). -/
theorem sendReturn_writes (s : State) (r : SendResult) :
    s.sendReturn r = { s with
      outcome := (s.sendReturn r).outcome, busEn := (s.sendReturn r).busEn, bus := (s.sendReturn r).bus
      dac := (s.sendReturn r).dac, st := (s.sendReturn r).st } := by
  cases r <;> rfl

/-- Settles O35: an operation issued leaves the state its rule builds, so each frame is what its parts write. -/
theorem interfaceFrames : Obligations.InterfaceFrames := by
  intro s t
  refine ⟨fun h => ?_, fun h => ?_, fun h => ?_, fun h => ?_, fun v h => ?_, fun n h => ?_, fun b h => ?_, fun b h => ?_,
    fun x y h => ?_, fun f h => ?_, fun d h => ?_, fun r h => ?_⟩
  · obtain rfl := eq_of_issue h
    simp
  · obtain rfl := eq_of_issue h
    simp
  · obtain rfl := eq_of_issue h
    rfl
  · obtain rfl := eq_of_issue h
    rfl
  · obtain rfl := eq_of_issue h
    exact afterTxe_writes ..
  · obtain rfl := exec_pollFtlvl_eq_next h
    exact afterFtlvl_writes ..
  · obtain rfl := eq_of_issue h
    exact afterBsy_writes ..
  · obtain rfl := exec_pushByte_eq_next h
    rw [← State.pushBytes_wire s [b]]
    rfl
  · obtain rfl := eq_of_issue h
    rw [← State.pushBytes_wire s [x, y]]
    rfl
  · obtain ⟨-, ⟨-, rfl⟩, rfl⟩ := (issue_eq_next_iff ..).1 h
    have ht : s.issueSend.trace = s.trace ∨ s.issueSend.trace = s.trace ++ [.send3 s.frame.word] := by
      rw [State.issueSend_trace]
      split
      · exact .inl rfl
      · exact .inr rfl
    cases s.env.send with
    | none => exact ⟨(issueSend_writes s).trans (by simp), ht⟩
    | some r => exact ⟨(sendReturn_writes s.issueSend r).trans (by simp), by simpa using ht⟩
  · obtain rfl := eq_of_issue h
    rfl
  · obtain rfl := eq_of_issue h
    rfl

/-! ## The trace keeps one of the shapes of R84 -/

/-- The not-ready answers of a wait as a trace counts them: none while waits are unbounded (R80). -/
def State.waitCount (s : State) : Nat :=
  match s.cfg.waitBound with
  | .unbounded => 0
  | .atMost _  => s.polls

theorem waitCount_of_polls_zero {s : State} (h : s.polls = 0) : s.waitCount = 0 := by
  unfold State.waitCount; split <;> simp [h]

/-- The bytes pushed so far: the frame's first `idx`, in order (R24, R41). -/
def State.pushed (s : State) : List Byte := s.frame.bytes.take s.idx.val

theorem shape_txWait {s : State} (h : s.st = .txWait) : s.shape = .wait s.pushed s.waitCount := by
  simp only [State.shape, h]; rfl

theorem shape_drainFifo {s : State} (h : s.st = .drainFifo) : s.shape = .fifo s.pushed s.waitCount := by
  simp only [State.shape, h]; rfl

theorem shape_drainBsy {s : State} (h : s.st = .drainBsy) : s.shape = .busy s.pushed s.waitCount := by
  simp only [State.shape, h]; rfl

theorem shape_push {s : State} (h : s.st = .push) : s.shape = .ready s.pushed := by
  simp only [State.shape, h]; rfl

/-- A not-ready answer moves the block where it moves the reader of the trace (R80), where `again` reads the waits in `w`. -/
theorem notReady_shape {s : State} {w : St} {again : Nat → Shape}
    (h : ∀ p, State.shape { s with polls := p, st := w } = again (State.waitCount { s with polls := p })) :
    (s.notReady w).shape = Shape.notReady s.cfg s.waitCount again := by
  rcases notReady_cases s w with ⟨hb, he⟩ | ⟨n, hb, hn, he⟩ | ⟨n, hb, hn, he⟩ <;> rw [he]
  · simpa [Shape.notReady, hb] using h s.polls
  · simp [State.shape, Shape.notReady, State.waitCount, hb, hn]
  · simpa [Shape.notReady, State.waitCount, hb, hn] using h (s.polls + 1)

/-- TXE's answer (R73): on to the push, or the wait goes on. -/
theorem next_pollTxe {s : State} (hs : s.st = .txWait) (v : Bool) :
    Shape.next s.cfg s.shape (.pollTxe v) = some (s.afterTxe v).shape := by
  rw [shape_txWait hs]
  cases v with
  | true => rfl
  | false => exact congrArg some (notReady_shape fun _ => rfl).symm

/-- FTLVL's answer (R75): on to BSY with a fresh count, or the wait goes on. -/
theorem next_pollFtlvl {s : State} (hs : s.st = .drainFifo) (n : FrameWord) :
    Shape.next s.cfg s.shape (.pollFtlvl n) = some (s.afterFtlvl n).shape := by
  rw [shape_drainFifo hs, State.afterFtlvl]
  by_cases hn : n = 0
  · have hk := waitCount_of_polls_zero (s := { s with polls := 0, st := .drainBsy }) rfl
    rw [if_pos hn, shape_drainBsy rfl, hk, hn]
    rfl
  · rw [if_neg hn, next_fifo_again _ _ _ hn]
    exact congrArg some (notReady_shape fun _ => rfl).symm

/-- The last poll (R76): the drain is over with the whole frame out and the result not yet `TIMEOUT`, or the wait goes on. -/
theorem next_pollBsy {s : State} (hs : s.st = .drainBsy) (hi : s.idx = 3) (ho : s.outcome = .ok) (b : Bool) :
    Shape.next s.cfg s.shape (.pollBsy b) = some (s.afterBsy b).shape := by
  rw [shape_drainBsy hs]
  cases b with
  | true => exact congrArg some (notReady_shape fun _ => rfl).symm
  | false =>
    have hall : s.pushed = s.frame.bytes := by rw [State.pushed, hi]; rfl
    rw [next_busy_drained, hall]
    simp [State.afterBsy, State.shape, ho]

theorem pushed_length (s : State) : s.pushed.length = s.idx.val := by
  simp [State.pushed, Frame.bytes]; omega

/-- After a push that brings the bytes out to `bs`, the reader and the block agree on what comes next (R74). -/
theorem afterPush_shape {s : State} {k : Nat} {bs : List Byte} (h : (s.afterPush k).pushed = bs) :
    (s.afterPush k).shape = Shape.afterPush bs := by
  have hk : (s.afterPush k).waitCount = 0 := waitCount_of_polls_zero rfl
  have hlen : bs.length = (s.idxPlus k).val := by rw [← h, pushed_length]; rfl
  have h3 : s.idxPlus k = 3 ↔ bs.length = 3 := by rw [hlen]; exact Fin.ext_iff
  by_cases hi : s.idxPlus k = 3
  · have hst : (s.afterPush k).st = .drainFifo := if_pos hi
    rw [shape_drainFifo hst, h, hk, Shape.afterPush, if_pos (h3.1 hi)]
  · have hst : (s.afterPush k).st = .txWait := if_neg hi
    rw [shape_txWait hst, h, hk, Shape.afterPush, if_neg (mt h3.2 hi)]

theorem byte?_eq_getElem? (f : Frame) (i : Nat) : f.byte? i = f.bytes[i]? := by
  match i with
  | 0 | 1 | 2 | _ + 3 => rfl

/-- Pushing the byte `frame[idx]` adds it to the bytes pushed (R74). -/
theorem take_succ_of_byte? {f : Frame} {i : Nat} {x : Byte} (hx : f.byte? i = some x) :
    f.bytes.take (i + 1) = f.bytes.take i ++ [x] := by
  rw [List.take_add_one, ← byte?_eq_getElem?, hx]
  rfl

theorem afterPush_pushed {s : State} {k : Nat} (h : s.idx.val + k ≤ 3) :
    (s.afterPush k).pushed = s.frame.bytes.take (s.idx.val + k) := by
  have hi : (s.idxPlus k).val = s.idx.val + k := Nat.mod_eq_of_lt (by omega)
  rw [State.pushed, State.afterPush_idx, hi]
  rfl

/-- A pair joins the bytes pushed: under `PACKED` it is the first two (R74). -/
theorem next_pushHalf {s : State} {x y : Byte} (hk : s.cfg.pushMode = .packed → s.idx ≠ 1)
    (hp : s.pushesPair = true) (hx : s.frame.byte? s.idx.val = some x) (hy : s.frame.byte? (s.idx.val + 1) = some y) :
    Shape.next s.cfg (.ready s.pushed) (.pushHalf x y) = some (s.afterPush 2).shape := by
  obtain ⟨hm, hlt⟩ := (pushesPair_iff s).1 hp
  have h0 : s.idx = 0 := idx_of_pushesPair hk hp
  have hbs : (s.afterPush 2).pushed = s.pushed ++ [x, y] := by
    rw [afterPush_pushed (by omega), ← Nat.add_assoc s.idx.val 1 1, take_succ_of_byte? hy, take_succ_of_byte? hx,
      List.append_assoc]
    rfl
  rw [next_ready_pair _ ⟨hm, by rw [pushed_length]; omega⟩, afterPush_shape hbs]

/-- A single byte joins the bytes pushed: any under `BYTEWISE`, the third under `PACKED` (R74). -/
theorem next_pushByte {s : State} {x : Byte} (hi : s.idx ≠ 3) (hp : s.pushesPair = false)
    (hx : s.frame.byte? s.idx.val = some x) :
    Shape.next s.cfg (.ready s.pushed) (.pushByte x) = some (s.afterPush 1).shape := by
  have hbs : (s.afterPush 1).pushed = s.pushed ++ [x] := by
    rw [afterPush_pushed (by omega), take_succ_of_byte? hx]
    rfl
  have hmode : s.cfg.pushMode = .bytewise ∨ s.pushed.length = 2 := by
    cases hm : s.cfg.pushMode with
    | bytewise => exact .inl rfl
    | packed => exact .inr (by rw [pushed_length, idx_of_pushesByte hi hp hm]; rfl)
  rw [next_ready_byte _ hmode, afterPush_shape hbs]

/-- How a step moves the reader of the trace: by the arrow of the one event it appends, not at all, or back to the start. -/
def State.readsOn (s u : State) : Prop :=
  (∃ e, u.trace = s.trace ++ [e] ∧ Shape.next s.cfg s.shape e = some u.shape) ∨
  (u.trace = s.trace ∧ u.shape = s.shape) ∨
  (u.trace = [] ∧ u.shape = .start)

/-- Once the call is issued the trace stands at `SEND3(F)`, whether this step emitted it or an earlier one (R104). -/
theorem issueSend_shape {s : State} (hs : s.st = .bSend) : s.issueSend.shape = .sent s.frame.word := by
  cases hb : s.bus.sending <;> simp [State.shape, State.issueSend, hs, hb]

/-- The blocking call is read once: by the step that issues it (R104). -/
theorem issueSend_readsOn {s : State} (hs : s.st = .bSend) (hv : s.cfg.variant = .blocking) : s.readsOn s.issueSend := by
  cases hb : s.bus.sending with
  | true => exact .inr (.inl (by simp [State.issueSend, hb]))
  | false =>
    refine .inl ⟨.send3 s.frame.word, by simp [State.issueSend, hb], ?_⟩
    rw [issueSend_shape hs, ← next_selected_send _ hv]
    simp [State.shape, hs, hb]

/-- The result of `DONE` is one its window allows: `OK` or `TIMEOUT` as it ended (POLLED), any but `TIMEOUT` (BLOCKING). -/
theorem next_result {s : State} (hs : s.st = .done) (hat : s.ctlAt .done) :
    Shape.next s.cfg s.shape (.result s.outcome) = some .start := by
  obtain ⟨hp, hb⟩ := hat
  cases hv : s.cfg.variant with
  | polled =>
    rcases (hp hv).1 with ho | ho <;> simp [State.shape, hs, hv, ho, next_released_ok, next_released_timeout]
  | blocking => simp [State.shape, hs, hv, next_releasedSend_result _ (hb hv)]

/-- A transmit starts with the trace between transmits (R70, R90). -/
theorem firstSt_shape {s t : State} (h : t.st = s.firstSt) : t.shape = .start := by
  cases hv : s.cfg.variant <;> simp [State.shape, h, State.firstSt, hv]

/-- Every step moves the reader of the trace where it moves the block: each event by its arrow of R84. -/
theorem StepTo.readsOn {s u : State} (h : StepTo s u) (hsend : s.bus.sending = true → s.st = .bSend)
    (hat : s.ctlAt s.st) : s.readsOn u := by
  cases h with
  | reset => exact .inr (.inr ⟨rfl, rfl⟩)
  | shift => exact .inr (.inl (by simp [State.shape]))
  | boot _ hs => exact .inr (.inl (by simp [State.shape, hs]))
  | noBoot | quiescent | hold | illegal | reentrant => exact .inr (.inl ⟨rfl, rfl⟩)
  | transmit _ _ _ hs => exact .inr (.inl ⟨rfl, by rw [firstSt_shape (s := s) rfl, State.shape, hs]⟩)
  | init _ _ _ _ hs => exact .inr (.inl ⟨rfl, by simp [State.shape, hs]⟩)
  | attempt _ _ hs => exact .inr (.inl ⟨rfl, by rw [firstSt_shape (s := s) rfl, State.shape, hs]⟩)
  | csOn _ _ hs => exact .inl ⟨.csAssert, by simp, by simp [State.shape, hs, next_start]⟩
  | bCsOn _ _ hs =>
    have hns : s.bus.sending = false := by simpa [hs] using hsend
    exact .inl ⟨.csAssert, by simp, by simp [State.shape, hs, hns, next_start]⟩
  | en _ _ hs =>
    rw [hs] at hat
    obtain ⟨hv, -, hi⟩ := hat
    refine .inl ⟨.busEnable, rfl, ?_⟩
    have hsel : s.shape = .selected := by simp only [State.shape, hs]
    have hk := waitCount_of_polls_zero (s := { s.enableBus.emit .busEnable with polls := 0, st := .txWait }) rfl
    rw [hsel, shape_txWait rfl, hk, next_selected_enable _ hv]
    simp [State.pushed, hi]
  | txWait _ _ hs => exact .inl ⟨_, by simp, next_pollTxe (s := s.emit _) hs _⟩
  | pushHalf _ _ hs x y hp hx hy =>
    rw [hs] at hat
    obtain ⟨-, -, -, hk, -⟩ := hat
    exact .inl ⟨.pushHalf x y, rfl, by
      rw [shape_push hs]
      exact next_pushHalf (s := (s.pushBytes [x, y]).emit (.pushHalf x y)) hk hp hx hy⟩
  | pushByte _ _ hs x hp hx =>
    rw [hs] at hat
    obtain ⟨-, -, hi, -, -⟩ := hat
    exact .inl ⟨.pushByte x, rfl, by
      rw [shape_push hs]
      exact next_pushByte (s := (s.pushBytes [x]).emit (.pushByte x)) hi hp hx⟩
  | drainFifo _ _ hs => exact .inl ⟨_, by simp, next_pollFtlvl (s := s.emit _) hs _⟩
  | drainBsy _ _ hs =>
    rw [hs] at hat
    obtain ⟨-, ho, hi, -⟩ := hat
    exact .inl ⟨_, by simp, next_pollBsy (s := s.emit _) hs hi ho _⟩
  | dis _ _ hs =>
    refine .inl ⟨.busDisable, rfl, ?_⟩
    by_cases ho : s.outcome = .timeout <;> simp [State.shape, hs, ho, next_timedOut, next_drained]
  | csOff _ _ hs =>
    refine .inl ⟨.csDeassert, by simp, ?_⟩
    rcases hs with hs | hs <;> rw [hs] at hat <;> obtain ⟨hv, -⟩ := hat
    · simp [State.shape, hs, hv, next_disabled]
    · simp [State.shape, hs, hv, next_sent]
  | sendHeld _ _ hs =>
    rw [hs] at hat
    exact issueSend_readsOn hs hat.1
  | sendReturned _ _ hs r =>
    rw [hs] at hat
    have hsh : (s.issueSend.sendReturn r).shape = s.issueSend.shape := by
      rw [issueSend_shape hs]
      simp [State.shape]
    simpa [State.readsOn, hsh] using issueSend_readsOn hs hat.1
  | retry _ _ hs hr =>
    rw [hs] at hat
    obtain ⟨-, ho⟩ := initAndBusy_of_retries hr
    have hv : s.cfg.variant ≠ .polled := fun hv => by simpa [ho] using (hat.1 hv).1
    exact .inr (.inl ⟨rfl, by simp [State.shape, hs, hv]⟩)
  | report _ _ hs =>
    rw [hs] at hat
    exact .inl ⟨.result s.outcome, rfl, next_result hs hat⟩
  | delay _ _ hs => exact .inl ⟨.delay s.cfg.retryDelay, rfl, by simp [State.shape, hs, next_releasedSend_delay]⟩

theorem State.readsOn.traceInv {s u : State} (h : s.readsOn u) (hc : u.cfg = s.cfg) (hs : s.traceInv) : u.traceInv := by
  unfold State.traceInv at *
  rw [hc]
  rcases h with ⟨e, ht, hn⟩ | ⟨ht, hn⟩ | ⟨ht, hn⟩ <;> rw [ht]
  · rw [readTrace_append hs, hn]
  · rw [hs, hn]
  · rw [readTrace_nil, hn]

/-- Settles O51: every step moves the reader of the trace as it moves the block. -/
theorem traceShapeKept : Obligations.TraceShapeKept := by
  intro s t hc hs h
  obtain ⟨u, hu, rfl⟩ := stepTo_of_step h
  obtain ⟨-, -, hsend, -, hat⟩ := (ctlInv_iff s).1 hc
  exact (hu.readsOn hsend hat).traceInv hu.cfg_eq hs

end Sys2Proof.Machine

namespace Sys2Proof

/-! ## A word written as its op byte before its 24 low bits -/

@[simp] theorem wordOp_append (op : Byte) (p : FrameWord) : wordOp (op ++ p) = op :=
  BitVec.extractLsb'_append_eq_left

@[simp] theorem wordPayload_append (op : Byte) (p : FrameWord) : wordPayload (op ++ p) = p :=
  BitVec.extractLsb'_append_eq_right

/-- Every word is an op byte before 24 low bits (R60, R63). -/
theorem exists_word_fields (w : Word) : ∃ (op : Byte) (p : FrameWord), w = op ++ p :=
  ⟨wordOp w, wordPayload w, (word_of_fields w).symm⟩

theorem word_append_inj {op op' : Byte} {p p' : FrameWord} : op ++ p = op' ++ p' ↔ op = op' ∧ p = p' := by
  constructor
  · intro h
    exact ⟨by simpa using congrArg wordOp h, by simpa using congrArg wordPayload h⟩
  · rintro ⟨rfl, rfl⟩
    rfl

/-! ## Requests -/

/-- The words of TRANSMIT and INIT by their fields (R61). -/
theorem spellsRequest_append (op : Byte) (p : FrameWord) :
    Word.spellsRequest (op ++ p) = true ↔ op = 0x01 ∨ op = 0x02 ∧ p = 0 := by
  have hop : (op ++ p).extractLsb' 24 8 = op := wordOp_append op p
  have hinit : (0x02000000#32 : Word) = 0x02#8 ++ 0#24 := rfl
  rw [Word.spellsRequest, hop, hinit, Bool.or_eq_true, beq_iff_eq, beq_iff_eq]
  exact or_congr_right word_append_inj

/-- The words that spell neither TRANSMIT nor INIT are ILLEGAL (R61, R62). -/
theorem decodeReq_append_illegal {op : Byte} {p : FrameWord} (h1 : op ≠ 0x01) (h2 : op = 0x02 → p ≠ 0) :
    decodeReq (op ++ p) = .illegalRequest (op ++ p) := by
  apply decodeReq_illegal
  rw [Bool.eq_false_iff, ne_eq, spellsRequest_append]
  rintro (h | ⟨hop, hp⟩)
  · exact h1 h
  · exact h2 hop hp

/-- The three rows of REQ32 and the words each takes (R61). -/
theorem decodeReq_cases (w : Word) :
    (∃ f : FrameWord, w = 0x01#8 ++ f ∧ decodeReq w = .transmit (frameWordCmd f) (frameWordCode f)) ∨
    (w = 0x02000000 ∧ decodeReq w = .init) ∨
    (w.spellsRequest = false ∧ decodeReq w = .illegalRequest w) := by
  obtain ⟨op, p, rfl⟩ := exists_word_fields w
  cases hw : Word.spellsRequest (op ++ p) with
  | false => exact .inr (.inr ⟨rfl, decodeReq_illegal hw⟩)
  | true =>
    rcases (spellsRequest_append op p).1 hw with rfl | ⟨rfl, rfl⟩
    · exact .inl ⟨p, rfl, decodeReq_op_one p⟩
    · exact .inr (.inl ⟨rfl, rfl⟩)

/-- Encoding a request's row gives the request back, and the row is well formed (R61). -/
theorem encode_decodeReq (w : Word) :
    encode (decodeReq w) = .req32 w ∧ ∀ c : Config, (decodeReq w).wf c = true := by
  rcases decodeReq_cases w with ⟨f, rfl, hd⟩ | ⟨rfl, hd⟩ | ⟨hw, hd⟩ <;> rw [hd]
  · refine ⟨congrArg CodeWord.req32 ?_, fun _ => rfl⟩
    rw [transmitWord_eq, frameWordOf, frameWord_of_fields]
  · exact ⟨rfl, fun _ => rfl⟩
  · exact ⟨rfl, fun _ => by simp [Instr.wf, hw]⟩

/-- The words of TRANSMIT are those of op `0x01` (R61). -/
theorem decodeReq_eq_transmit_iff (w : Word) :
    (∃ cmd code, decodeReq w = .transmit cmd code) ↔ ∃ f : FrameWord, w = 0x01#8 ++ f := by
  constructor
  · rintro ⟨cmd, code, hd⟩
    have hw : encode (.transmit cmd code) = .req32 w := hd ▸ (encode_decodeReq w).1
    exact ⟨cmd ++ code, (CodeWord.req32.inj hw).symm.trans (transmitWord_eq cmd code)⟩
  · rintro ⟨f, rfl⟩
    exact ⟨_, _, decodeReq_op_one f⟩

/-- The one word of INIT (R61). -/
theorem decodeReq_eq_init_iff (w : Word) : decodeReq w = .init ↔ w = 0x02000000 := by
  constructor
  · intro hd
    have hw : encode .init = .req32 w := hd ▸ (encode_decodeReq w).1
    exact (CodeWord.req32.inj hw).symm
  · rintro rfl
    rfl

/-- A mask of the op byte tells the words of one op (opcode_table.json). -/
theorem op_masked_eq_iff (op : Byte) (w : Word) :
    w &&& 0xFF000000#32 = op ++ 0#24 ↔ ∃ f : FrameWord, w = op ++ f := by
  obtain ⟨k, p, rfl⟩ := exists_word_fields w
  rw [Laws.RowMatch.top_byte_masked]
  simp [word_append_inj]

/-! ## Frames -/

theorem isDefinedCommand_iff (c : Byte) :
    Byte.isDefinedCommand c = true ↔ c ∈ [0x00#8, 0x04#8, 0x10#8, 0x14#8, 0x24#8, 0x34#8] := by
  simp [Byte.isDefinedCommand, or_assoc]

theorem decodeFrame_wrbufA (k : Code) : decodeFrame (0x00#8 ++ k) = .wrbufA k := by simp [decodeFrame]
theorem decodeFrame_wrbufB (k : Code) : decodeFrame (0x04#8 ++ k) = .wrbufB k := by simp [decodeFrame]
theorem decodeFrame_wrldA (k : Code) : decodeFrame (0x10#8 ++ k) = .wrldA k := by simp [decodeFrame]
theorem decodeFrame_wrldB (k : Code) : decodeFrame (0x24#8 ++ k) = .wrldB k := by simp [decodeFrame]
theorem decodeFrame_wrbufBWrldA (k : Code) : decodeFrame (0x14#8 ++ k) = .wrbufBWrldA k := by simp [decodeFrame]
theorem decodeFrame_wrldAWrldB (k : Code) : decodeFrame (0x34#8 ++ k) = .wrldAWrldB k := by simp [decodeFrame]

/-- Encoding a frame's row gives the frame back, and the row is well formed (R55, R57–R59). -/
theorem encode_decodeFrame (f : FrameWord) :
    encode (decodeFrame f) = .frame24 f ∧ ∀ c : Config, (decodeFrame f).wf c = true := by
  rw [← frameWord_of_fields f]
  generalize frameWordCode f = k
  cases hc : Byte.isDefinedCommand (frameWordCmd f) with
  | false =>
    rw [decodeFrame_other k hc]
    exact ⟨rfl, fun _ => by simp [Instr.wf, hc]⟩
  | true =>
    have hmem := (isDefinedCommand_iff _).1 hc
    simp only [List.mem_cons, List.not_mem_nil, or_false] at hmem
    rcases hmem with h | h | h | h | h | h <;> rw [h]
    · rw [decodeFrame_wrbufA]; exact ⟨rfl, fun _ => rfl⟩
    · rw [decodeFrame_wrbufB]; exact ⟨rfl, fun _ => rfl⟩
    · rw [decodeFrame_wrldA]; exact ⟨rfl, fun _ => rfl⟩
    · rw [decodeFrame_wrbufBWrldA]; exact ⟨rfl, fun _ => rfl⟩
    · rw [decodeFrame_wrldB]; exact ⟨rfl, fun _ => rfl⟩
    · rw [decodeFrame_wrldAWrldB]; exact ⟨rfl, fun _ => rfl⟩

/-! ## Event payloads -/

theorem withPayload_eq_ok_iff (k : Byte) (p : FrameWord) (n : Nat) (e e' : Event) :
    withPayload k p n e = .ok e' ↔ p.toNat < 2 ^ n ∧ e = e' := by
  unfold withPayload
  split <;> simp [*]

theorem withPayload_fits {k : Byte} {p : FrameWord} {n : Nat} {e e' : Event} (h : p.toNat < 2 ^ n) (he : e = e') :
    withPayload k p n e = .ok e' :=
  (withPayload_eq_ok_iff ..).2 ⟨h, he⟩

theorem withPayload_too_wide {k : Byte} {p : FrameWord} {n : Nat} (e : Event) (h : 2 ^ n ≤ p.toNat) :
    withPayload k p n e = .error (.payloadNotZero k) :=
  if_neg (Nat.not_lt.2 h)

theorem payload_eq_zero {p : FrameWord} (h : p.toNat < 2 ^ 0) : p = 0 :=
  BitVec.eq_of_toNat_eq (Nat.lt_one_iff.1 h)

theorem bitPayload_low_bit {p : FrameWord} (h : p.toNat < 2 ^ 1) : bitPayload (p.getLsbD 0) = p := by
  have hp : p = BitVec.ofNat 24 p.toNat := by simp
  have hbit : p.toNat = 0 ∨ p.toNat = 1 := by omega
  rcases hbit with h0 | h1
  · rw [hp, h0]; rfl
  · rw [hp, h1]; rfl

/-- An operand of `n` bits, widened to a payload, sets no bit above them (R63). -/
theorem operand_payload_fits {n : Nat} (b : BitVec n) (h : n ≤ 24) : (b.setWidth 24).toNat < 2 ^ n := by
  rw [BitVec.toNat_setWidth_of_le h]
  exact b.isLt

theorem low_bits_of_operand {n : Nat} (b : BitVec n) (h : n ≤ 24) : (b.setWidth 24).extractLsb' 0 n = b := by
  rw [← BitVec.setWidth_eq_extractLsb' h, BitVec.setWidth_setWidth_of_le _ h, BitVec.setWidth_eq]

/-- A payload with no bit above the low `n` is its low `n` bits widened (R63). -/
theorem operand_of_low_bits {p : FrameWord} {n : Nat} (h : p.toNat < 2 ^ n) : (p.extractLsb' 0 n).setWidth 24 = p := by
  apply BitVec.eq_of_toNat_eq
  simp [BitVec.extractLsb'_toNat, Nat.mod_eq_of_lt h, Nat.mod_eq_of_lt p.isLt]

/-- The payload of a pair push is its two bytes as one 16-bit operand (R63). -/
theorem pair_payload (b0 b1 : Byte) : 0x00#8 ++ b0 ++ b1 = (b0 ++ b1).setWidth 24 :=
  BitVec.append_assoc.trans (BitVec.setWidth_eq_append (by decide)).symm

theorem pair_of_low_bits {p : FrameWord} (h : p.toNat < 2 ^ 16) :
    0x00#8 ++ p.extractLsb' 8 8 ++ p.extractLsb' 0 8 = p := by
  have hlow : p.extractLsb' 8 8 ++ p.extractLsb' 0 8 = p.extractLsb' 0 16 :=
    BitVec.extractLsb'_append_extractLsb'_eq_extractLsb' rfl
  rw [pair_payload, hlow]
  exact operand_of_low_bits h

theorem resultCode_resultOfCode (c : BitVec 2) : resultCode (resultOfCode c) = c := by
  revert c; decide

/-! ## Events -/

section Kinds

variable (p : FrameWord)

theorem decodeEvt_kind_csAssert : decodeEvt (0x01#8 ++ p) = withPayload 0x01 p 0 .csAssert := by simp [decodeEvt]
theorem decodeEvt_kind_csDeassert : decodeEvt (0x02#8 ++ p) = withPayload 0x02 p 0 .csDeassert := by simp [decodeEvt]
theorem decodeEvt_kind_busEnable : decodeEvt (0x03#8 ++ p) = withPayload 0x03 p 0 .busEnable := by simp [decodeEvt]
theorem decodeEvt_kind_busDisable : decodeEvt (0x04#8 ++ p) = withPayload 0x04 p 0 .busDisable := by simp [decodeEvt]
theorem decodeEvt_kind_pollTxe : decodeEvt (0x05#8 ++ p) =
    withPayload 0x05 p 1 (.pollTxe (p.getLsbD 0)) := by
  simp [decodeEvt]
theorem decodeEvt_kind_pollFtlvl : decodeEvt (0x06#8 ++ p) = .ok (.pollFtlvl p) := by simp [decodeEvt]
theorem decodeEvt_kind_pollBsy : decodeEvt (0x07#8 ++ p) =
    withPayload 0x07 p 1 (.pollBsy (p.getLsbD 0)) := by
  simp [decodeEvt]
theorem decodeEvt_kind_pushByte : decodeEvt (0x08#8 ++ p) = withPayload 0x08 p 8 (.pushByte (p.extractLsb' 0 8)) := by
  simp [decodeEvt]
theorem decodeEvt_kind_pushHalf : decodeEvt (0x09#8 ++ p) =
    withPayload 0x09 p 16 (.pushHalf (p.extractLsb' 8 8) (p.extractLsb' 0 8)) := by
  simp [decodeEvt]
theorem decodeEvt_kind_send3 : decodeEvt (0x0A#8 ++ p) = .ok (.send3 p) := by simp [decodeEvt]
theorem decodeEvt_kind_delay : decodeEvt (0x0B#8 ++ p) = .ok (.delay p) := by simp [decodeEvt]
theorem decodeEvt_kind_result : decodeEvt (0x0C#8 ++ p) =
    withPayload 0x0C p 2 (.result (resultOfCode (p.extractLsb' 0 2))) := by
  simp [decodeEvt]

end Kinds

/-- The kinds 0x00 and 0x0D–0xFF are no event (R63). -/
theorem decodeEvt_noSuchKind {k : Byte} (p : FrameWord) (h : k = 0x00 ∨ 0x0C < k.toNat) :
    decodeEvt (k ++ p) = .error (.noSuchKind k) := by
  have hne : ∀ j : Byte, j ≠ 0x00 → j.toNat ≤ 0x0C → k ≠ j := by
    rintro _ h0 hle rfl
    rcases h with h | h
    · exact h0 h
    · omega
  simp [decodeEvt, hne]

/-- The kinds are the twelve of R63 and those of no event. -/
theorem kind_cases (k : Byte) :
    (k = 0x01#8 ∨ k = 0x02#8 ∨ k = 0x03#8 ∨ k = 0x04#8 ∨ k = 0x05#8 ∨ k = 0x06#8 ∨ k = 0x07#8 ∨ k = 0x08#8 ∨
      k = 0x09#8 ∨ k = 0x0A#8 ∨ k = 0x0B#8 ∨ k = 0x0C#8) ∨ (k = 0x00 ∨ 0x0C < k.toNat) := by
  revert k; decide

/-- Decoding the word of an event gives the event back (R63, R64). -/
theorem decodeEvt_encodeEvent (e : Event) : decodeEvt (encodeEvent e) = .ok e := by
  cases e with
  | csAssert | csDeassert | busEnable | busDisable => rfl
  | pollTxe v | pollBsy v => cases v <;> rfl
  | pollFtlvl n => exact decodeEvt_kind_pollFtlvl n
  | send3 f => exact decodeEvt_kind_send3 f
  | delay t => exact decodeEvt_kind_delay t
  | result r => cases r <;> rfl
  | pushByte b =>
    have hfits : (b.setWidth 24).toNat < 2 ^ 8 := operand_payload_fits b (by decide)
    have hlow : (b.setWidth 24).extractLsb' 0 8 = b := low_bits_of_operand b (by decide)
    exact (decodeEvt_kind_pushByte _).trans (withPayload_fits hfits (congrArg Event.pushByte hlow))
  | pushHalf b0 b1 =>
    have hfits : (0x00#8 ++ b0 ++ b1).toNat < 2 ^ 16 := pair_payload b0 b1 ▸ operand_payload_fits _ (by decide)
    have hhigh : (0x00#8 ++ b0 ++ b1).extractLsb' 8 8 = b0 :=
      (BitVec.extractLsb'_append_eq_of_le le_rfl).trans BitVec.extractLsb'_append_eq_right
    have hlow : (0x00#8 ++ b0 ++ b1).extractLsb' 0 8 = b1 := BitVec.extractLsb'_append_eq_right
    exact (decodeEvt_kind_pushHalf _).trans (withPayload_fits hfits (congrArg₂ Event.pushHalf hhigh hlow))

/-- Where the payload fits, the word of a row is that of the event it gives. -/
theorem encodeEvent_of_withPayload {k : Byte} {p : FrameWord} {n : Nat} {e e' : Event}
    (h : withPayload k p n e = .ok e') (he : p.toNat < 2 ^ n → encodeEvent e = k ++ p) : encodeEvent e' = k ++ p := by
  obtain ⟨hp, rfl⟩ := (withPayload_eq_ok_iff ..).1 h
  exact he hp

/-- Encoding the event of a word gives the word back (R63, R64). -/
theorem encodeEvent_of_decodeEvt {w : Word} {e : Event} (h : decodeEvt w = .ok e) : encodeEvent e = w := by
  obtain ⟨k, p, rfl⟩ := exists_word_fields w
  rcases kind_cases k with
    (rfl | rfl | rfl | rfl | rfl | rfl | rfl | rfl | rfl | rfl | rfl | rfl) | hk
  · rw [decodeEvt_kind_csAssert] at h
    exact encodeEvent_of_withPayload h fun hp => congrArg (eventWord 0x01) (payload_eq_zero hp).symm
  · rw [decodeEvt_kind_csDeassert] at h
    exact encodeEvent_of_withPayload h fun hp => congrArg (eventWord 0x02) (payload_eq_zero hp).symm
  · rw [decodeEvt_kind_busEnable] at h
    exact encodeEvent_of_withPayload h fun hp => congrArg (eventWord 0x03) (payload_eq_zero hp).symm
  · rw [decodeEvt_kind_busDisable] at h
    exact encodeEvent_of_withPayload h fun hp => congrArg (eventWord 0x04) (payload_eq_zero hp).symm
  · rw [decodeEvt_kind_pollTxe] at h
    exact encodeEvent_of_withPayload h fun hp => congrArg (eventWord 0x05) (bitPayload_low_bit hp)
  · rw [decodeEvt_kind_pollFtlvl] at h
    obtain rfl := Except.ok.inj h
    rfl
  · rw [decodeEvt_kind_pollBsy] at h
    exact encodeEvent_of_withPayload h fun hp => congrArg (eventWord 0x07) (bitPayload_low_bit hp)
  · rw [decodeEvt_kind_pushByte] at h
    exact encodeEvent_of_withPayload h fun hp => congrArg (eventWord 0x08) (operand_of_low_bits hp)
  · rw [decodeEvt_kind_pushHalf] at h
    exact encodeEvent_of_withPayload h fun hp => congrArg (eventWord 0x09) (pair_of_low_bits hp)
  · rw [decodeEvt_kind_send3] at h
    obtain rfl := Except.ok.inj h
    rfl
  · rw [decodeEvt_kind_delay] at h
    obtain rfl := Except.ok.inj h
    rfl
  · rw [decodeEvt_kind_result] at h
    refine encodeEvent_of_withPayload h fun hp => congrArg (eventWord 0x0C) ?_
    rw [resultCode_resultOfCode]
    exact operand_of_low_bits hp
  · rw [decodeEvt_noSuchKind p hk] at h
    cases h

theorem decode_evt32_eq_ok {w : Word} {i : Instr} (h : decode (.evt32 w) = .ok i) :
    ∃ e, decodeEvt w = .ok e ∧ i = instrOfEvent e := by
  simp only [decode] at h
  cases he : decodeEvt w with
  | ok e =>
    rw [he] at h
    exact ⟨e, rfl, (Except.ok.inj h).symm⟩
  | error d =>
    rw [he] at h
    cases h

theorem decode_evt32_error {w : Word} {d : DecodeError} (h : decodeEvt w = .error d) :
    decode (.evt32 w) = .error d :=
  congrArg (Except.map instrOfEvent) h

theorem encode_instrOfEvent (e : Event) : encode (instrOfEvent e) = .evt32 (encodeEvent e) := by
  cases e <;> rfl

/-- Of the event rows only POLL_FTLVL depends on the configuration, and 24 bits hold every answer (R15, R63). -/
theorem instrOfEvent_wf (e : Event) {c : Config} (h : c.ftlvlWidth = 24) : (instrOfEvent e).wf c = true := by
  cases e with
  | pollFtlvl n => simpa [instrOfEvent, Instr.wf, Config.ftlvlFits, h] using n.isLt
  | _ => rfl

theorem decode_evt32_encodeEvent (e : Event) : decode (.evt32 (encodeEvent e)) = .ok (instrOfEvent e) :=
  congrArg (Except.map instrOfEvent) (decodeEvt_encodeEvent e)

/-! ## The round trip -/

/-- Settles O1, row by row: a request or a frame by its leading byte, an event by its kind and payload. -/
theorem decodeOfEncode : Obligations.DecodeOfEncode := by
  intro c i hwf
  cases i with
  | transmit cmd code => exact congrArg Except.ok (decodeReq_transmitWord cmd code)
  | init => rfl
  | illegalRequest w => exact congrArg Except.ok (decodeReq_illegal (by simpa [Instr.wf] using hwf))
  | wrbufA k => exact congrArg Except.ok (decodeFrame_wrbufA k)
  | wrbufB k => exact congrArg Except.ok (decodeFrame_wrbufB k)
  | wrldA k => exact congrArg Except.ok (decodeFrame_wrldA k)
  | wrldB k => exact congrArg Except.ok (decodeFrame_wrldB k)
  | wrbufBWrldA k => exact congrArg Except.ok (decodeFrame_wrbufBWrldA k)
  | wrldAWrldB k => exact congrArg Except.ok (decodeFrame_wrldAWrldB k)
  | frameOther cmd k => exact congrArg Except.ok (decodeFrame_other k (by simpa [Instr.wf] using hwf))
  | csAssert | csDeassert | busEnable | busDisable | pollTxe | pollFtlvl | pollBsy | pushByte | pushHalf | send3 | delay
  | result => exact decode_evt32_encodeEvent _

/-- Settles O2, format by format. -/
theorem encodeOfDecode : Obligations.EncodeOfDecode := by
  intro w i hd
  cases w with
  | req32 w =>
    obtain rfl := Except.ok.inj hd
    obtain ⟨henc, hwf⟩ := encode_decodeReq w
    exact ⟨henc, fun c _ => hwf c⟩
  | frame24 f =>
    obtain rfl := Except.ok.inj hd
    obtain ⟨henc, hwf⟩ := encode_decodeFrame f
    exact ⟨henc, fun c _ => hwf c⟩
  | evt32 w =>
    obtain ⟨e, he, rfl⟩ := decode_evt32_eq_ok hd
    exact ⟨by rw [encode_instrOfEvent, encodeEvent_of_decodeEvt he], fun c hc => instrOfEvent_wf e hc⟩

/-! ## Each format's words -/

/-- Settles O3: the words of TRANSMIT and INIT by their fields, all others ILLEGAL; a mask reads the same fields. -/
theorem requestDecodingIsTotal : Obligations.RequestDecodingIsTotal := by
  refine ⟨decodeReq_transmitWord, fun p => ?_, fun op p h1 h2 => ?_, fun w => ?_, fun w => ?_⟩
  · split
    next hp => rw [hp]; rfl
    next hp => exact decodeReq_append_illegal (by decide) fun _ => hp
  · exact decodeReq_append_illegal h1 fun h => absurd h h2
  · exact (decodeReq_eq_transmit_iff w).trans (op_masked_eq_iff 0x01 w).symm
  · have hall : w &&& 0xFFFFFFFF#32 = w := BitVec.and_allOnes
    rw [hall]
    exact decodeReq_eq_init_iff w

/-- Settles O4 by the six rows of R57 and R58 and the catch-all of R59. -/
theorem frameWordsByCommandByte : Obligations.FrameWordsByCommandByte := by
  refine ⟨fun k => ⟨decodeFrame_wrbufA k, decodeFrame_wrbufB k, decodeFrame_wrldA k, decodeFrame_wrldB k,
    decodeFrame_wrbufBWrldA k, decodeFrame_wrldAWrldB k⟩, fun c k hc => decodeFrame_other k ?_⟩
  rw [Bool.eq_false_iff, ne_eq, isDefinedCommand_iff]
  exact hc

/-- Settles O6: a kind of no event is refused before its payload is read, a payload too wide for its row after. -/
theorem wordsThatAreNoEvent : Obligations.WordsThatAreNoEvent := by
  refine ⟨fun k p hk => decode_evt32_error (decodeEvt_noSuchKind p hk), fun k p h => decode_evt32_error ?_⟩
  simp only [List.mem_cons, List.not_mem_nil, or_false] at h
  rcases h with ⟨hk, hp⟩ | ⟨hk, hp⟩ | ⟨rfl, hp⟩ | ⟨rfl, hp⟩ | ⟨rfl, hp⟩
  · have hwide : 2 ^ 0 ≤ p.toNat := Nat.one_le_iff_ne_zero.2 fun h => hp (BitVec.eq_of_toNat_eq h)
    rcases hk with rfl | rfl | rfl | rfl
    · exact (decodeEvt_kind_csAssert p).trans (withPayload_too_wide _ hwide)
    · exact (decodeEvt_kind_csDeassert p).trans (withPayload_too_wide _ hwide)
    · exact (decodeEvt_kind_busEnable p).trans (withPayload_too_wide _ hwide)
    · exact (decodeEvt_kind_busDisable p).trans (withPayload_too_wide _ hwide)
  · rcases hk with rfl | rfl
    · exact (decodeEvt_kind_pollTxe p).trans (withPayload_too_wide _ hp)
    · exact (decodeEvt_kind_pollBsy p).trans (withPayload_too_wide _ hp)
  · exact (decodeEvt_kind_pushByte p).trans (withPayload_too_wide _ hp)
  · exact (decodeEvt_kind_pushHalf p).trans (withPayload_too_wide _ hp)
  · exact (decodeEvt_kind_result p).trans (withPayload_too_wide _ hp)

/-- Settles O5: every word is the one its row is encoded to. -/
theorem wordsWrittenOut : Obligations.WordsWrittenOut :=
  ⟨decodeOfEncode .standard (.transmit 0x10 0x1234) rfl, decodeOfEncode .standard .init rfl,
    decodeOfEncode .standard (.illegalRequest 0x02800000) rfl,
    decodeOfEncode .standard (.illegalRequest 0x81101234) rfl,
    decodeOfEncode .standard (.wrldB 0xFFFF) rfl, decodeOfEncode .standard (.pollTxe true) rfl,
    decodeOfEncode .standard (.pushHalf 0x10 0x12) rfl, decodeOfEncode .standard (.send3 0x101234) rfl,
    decodeOfEncode .standard (.delay 10) rfl, decodeOfEncode .standard (.result .timeout) rfl⟩

end Sys2Proof

namespace Sys2Proof.Machine

/-! ## The assembler -/

theorem assembleTransmit_fits {cmd code : Nat} (h1 : cmd < 256) (h2 : code < 65536) :
    assembleTransmit cmd code = some (transmitWord (BitVec.ofNat 8 cmd) (BitVec.ofNat 16 code)) :=
  if_pos ⟨h1, h2⟩

theorem assembleTransmit_refused {cmd code : Nat} (h : 256 ≤ cmd ∨ 65536 ≤ code) : assembleTransmit cmd code = none :=
  if_neg (by omega)

/-- Settles O9: a line assembles by its operands' values, and an OR of bytes is the byte of the OR. -/
theorem assemblerNeverTruncates : Obligations.AssemblerNeverTruncates := by
  refine ⟨fun n k hn hk => ⟨assembleTransmit_fits hn hk, decodeReq_transmitWord _ _⟩,
    fun n k h => assembleTransmit_refused h, fun _ _ => rfl, rfl, fun c d k => ?_⟩
  exact congrArg (assembleTransmit · k) (BitVec.toNat_or ..).symm

/-! ## Frame rows and ILLEGAL words as requests -/

/-- Settles O12: the row of a frame runs as its TRANSMIT, and only a TRANSMIT request may run under such a row. -/
theorem frameRequestsExpandToTransmit : Obligations.FrameRequestsExpandToTransmit := by
  refine ⟨fun s c k => ?_, fun s r => ?_⟩
  · have hd : decodeReq (0x01#8 ++ c ++ k) = .transmit c k := decodeReq_transmitWord c k
    rw [hd, exec_decodeFrame]
    rfl
  · rcases exec_request_cases r s with ⟨cmd, code, hd, he⟩ | ⟨hd, -, he⟩ | ⟨w, hd, -, he⟩
    · rw [hd, he]; rfl
    · rw [hd, he]; rfl
    · rw [hd, he]; rfl

theorem firstSt_eq (s : State) : s.firstSt = if s.cfg.variant = .polled then .csOn else .bCsOn := by
  unfold State.firstSt
  cases s.cfg.variant <;> rfl

/-- Settles O11: in `IDLE` without a fault the request is accepted by R70. -/
theorem frameRequestsAreAccepted : Obligations.FrameRequestsAreAccepted := by
  intro s k c hs hf p hp
  have hexec : exec p.1 s = s.present (s.acceptTransmit p.2 k) := by
    simp only [List.mem_cons, List.not_mem_nil, or_false] at hp
    rcases hp with rfl | rfl | rfl | rfl | rfl | rfl | rfl <;> rfl
  rw [hexec, present_idle _ hf hs, State.acceptTransmit, firstSt_eq]
  rfl

/-- Settles O14: an ILLEGAL word is presented like any other, and in `IDLE` its acceptance is the fault (R62, R120). -/
theorem illegalWordsFault : Obligations.IllegalWordsFault := by
  intro op p s h hf
  have hd : decodeReq (op ++ p) = .illegalRequest (op ++ p) := by
    rcases h with ⟨h1, h2⟩ | ⟨rfl, hp⟩
    · exact decodeReq_append_illegal h1 fun h => absurd h h2
    · exact decodeReq_append_illegal (by decide) fun _ => hp
  rw [hd]
  exact ⟨rfl, fun hs => present_idle _ hf hs, fun hs => present_reentrant _ hf hs⟩

end Sys2Proof.Machine

namespace Sys2Proof.Machine

/-! ## The wire invariant, state by state -/

/-- The part of the wire invariant that is particular to the block state `w`. -/
def State.wireAt (s : State) : St → Prop
  | .idle | .csOn | .bCsOn | .iTx | .iDelay => s.bus.drained = true
  | .en | .bSend => s.bus.drained = true ∧ s.dac.window = []
  | .txWait | .push | .drainFifo | .drainBsy => s.dac.window ++ s.bus.pending = s.pushedBits
  | .dis | .csOff => s.bus.drained = true ∧ s.dac.window = wireBitsOf s.frame.bytes
  | .bCsOff => s.bus.drained = true ∧ (s.outcome = .ok → s.dac.window = wireBitsOf s.frame.bytes)
  | .done => s.bus.drained = true ∧ (s.outcome = .ok → s.dac.received.getLast? = some (some s.frame.word))

theorem wireInv_iff (s : State) : s.wireInv ↔ s.wireAt s.st := by
  unfold State.wireInv State.wireAt
  cases hs : s.st <;> simp

/-- At the end of a transmit of which a poll timed out. -/
def State.timedOut (s : State) : Prop := (s.st = .dis ∨ s.st = .csOff ∨ s.st = .done) ∧ s.outcome = .timeout

/-! ## What the bus and the DAC hold after each operation on them -/

/-- A push right after `POLL_TXE(1)` joins the end of the queue (R111). -/
theorem pushBytes_lawful {s : State} (h : s.trace.getLast? = some (.pollTxe true)) (bs : List Byte) :
    s.pushBytes bs = { s with bus := { s.bus with queue := s.bus.queue ++ bs } } := by
  simp [State.pushBytes, h]

theorem disableBus_bus_of_drained {s : State} (h : s.bus.drained = true) : s.disableBus.bus = s.bus := if_pos h

theorem csHigh_bus_of_drained {s : State} (h : s.bus.drained = true) : s.csHigh.bus = s.bus := by
  cases hc : s.csN <;> simp [State.csHigh, hc, h]

/-- A rising chip-select adds the window's verdict to the record (R117). -/
theorem csHigh_received {s : State} (h : s.csN = false) :
    s.csHigh.dac.received = s.dac.received ++ [s.windowVerdict] := by
  simp [State.csHigh, h]

/-- A falling chip-select opens a window (R117). -/
theorem csLow_window {s : State} (h : s.csN = true) : s.csLow.dac.window = [] := by
  simp [State.csLow, h]

theorem busShift_of_drained {s : State} (h : s.bus.drained = true) : s.busShift = s := by
  obtain ⟨hq, hsh⟩ := (drained_iff s.bus).1 h
  simp [State.busShift, hq, hsh]

/-- A shifting step in a window moves a bit from what is pending to what the DAC saw, or a byte into the shifter (R112). -/
theorem busShift_window_pending {s : State} (h : s.csN = false) :
    s.busShift.dac.window ++ s.busShift.bus.pending = s.dac.window ++ s.bus.pending := by
  unfold State.busShift
  split
  · split
    · next hsh => simp [State.shiftOut, Bus.pending, h, hsh]
    · next hsh hq => simp [Bus.pending, hsh, hq, wireBitsOf]
    · rfl
  · rfl

/-- The bits of the frame word are those of its bytes (R42). -/
theorem wireBits_word (f : Frame) : wireBits f.word = wireBitsOf f.bytes := (wireBitOrder f).1.symm

/-- A window of exactly the frame's bits, on a drained bus, is the frame (R117). -/
theorem windowVerdict_of_frame {s : State} (hd : s.bus.drained = true) (hw : s.dac.window = wireBitsOf s.frame.bytes) :
    s.windowVerdict = some s.frame.word := by
  rw [← wireBits_word] at hw
  simp [State.windowVerdict, hd, hw, wordOfWire_wireBits]

/-! ## Each step carries the wire on -/

theorem busShift_wireAt {s : State} {w : St} (hcs : w.selected = true → s.csN = false) (h : s.wireAt w) :
    s.busShift.wireAt w := by
  by_cases hd : s.bus.drained = true
  · rwa [busShift_of_drained hd]
  · cases w with
    | idle | csOn | bCsOn | iTx | iDelay => exact absurd h hd
    | en | bSend | dis | csOff | bCsOff | done => exact absurd h.1 hd
    | txWait | push | drainFifo | drainBsy =>
      have hbits : s.busShift.pushedBits = s.pushedBits := by simp [State.pushedBits]
      exact (busShift_window_pending (hcs rfl)).trans (h.trans hbits.symm)

/-- A not-ready answer that does not end the wait leaves wire and frame as they were (R80). -/
theorem notReady_wireAt {s : State} {w : St} (h : s.wireAt w) (hto : ¬ (s.notReady w).timedOut) :
    (s.notReady w).wireAt (s.notReady w).st := by
  rcases notReady_cases s w with ⟨-, he⟩ | ⟨-, -, -, he⟩ | ⟨-, -, -, he⟩
  · rw [he]; exact h
  · rw [he] at hto; exact absurd ⟨.inl rfl, rfl⟩ hto
  · rw [he]; exact h

theorem afterPush_one_pushed {s : State} {x : Byte} (hi : s.idx.val + 1 ≤ 3) (hx : s.frame.byte? s.idx.val = some x) :
    (s.afterPush 1).pushed = s.pushed ++ [x] := by
  rw [afterPush_pushed hi, take_succ_of_byte? hx, State.pushed]

theorem afterPush_two_pushed {s : State} {x y : Byte} (hi : s.idx.val + 2 ≤ 3) (hx : s.frame.byte? s.idx.val = some x)
    (hy : s.frame.byte? (s.idx.val + 1) = some y) : (s.afterPush 2).pushed = s.pushed ++ [x, y] := by
  rw [afterPush_pushed hi, ← Nat.add_assoc s.idx.val 1 1, take_succ_of_byte? hy, take_succ_of_byte? hx,
    List.append_assoc, State.pushed]
  rfl

/-- A push of the frame's next bytes puts as much behind what is pending as it adds to what was pushed (R74, R111). -/
theorem push_wireAt {s : State} {bs : List Byte} {k : Nat} (e : Event) (ht : s.trace.getLast? = some (.pollTxe true))
    (h : s.wireAt .push) (hbs : (s.afterPush k).pushed = s.pushed ++ bs) :
    (((s.pushBytes bs).emit e).afterPush k).wireAt (((s.pushBytes bs).emit e).afterPush k).st := by
  have hwire : s.dac.window ++ (s.bus.shifter ++ wireBitsOf (s.bus.queue ++ bs)) = wireBitsOf (s.afterPush k).pushed := by
    have h' : s.dac.window ++ (s.bus.shifter ++ wireBitsOf s.bus.queue) = wireBitsOf s.pushed := h
    rw [hbs, wireBitsOf_append, wireBitsOf_append, ← h']
    simp only [List.append_assoc]
  rw [pushBytes_lawful ht]
  unfold State.afterPush
  split <;> exact hwire

theorem issueSend_bus (s : State) : s.issueSend.bus = { s.bus with sending := true } := by
  unfold State.issueSend
  split
  · next hb => rw [← hb]
  · rfl

/-- Issuing the call puts nothing on the wire (R104). -/
theorem issueSend_wireAt {s : State} (h : s.wireAt .bSend) : s.issueSend.wireAt .bSend := by
  obtain ⟨hd, hw⟩ := h
  exact ⟨by rw [issueSend_bus]; exact hd, by simpa using hw⟩

/-- A send that returned `OK` sent the frame, one that did not leaves the bus drained (R116). -/
theorem sendReturn_wireAt {s : State} (hcs : s.csN = false) (h : s.wireAt .bSend) (r : SendResult) :
    (s.sendReturn r).wireAt .bCsOff := by
  obtain ⟨hd, hw⟩ := h
  cases r with
  | ok =>
    refine ⟨rfl, fun _ => ?_⟩
    simp [State.sendTransfer, State.shiftOut, hcs, hw, drained_pending hd, wireBits_word]
  | busy | error => exact ⟨hd, fun ho => by simp [sendOutcome] at ho⟩

/-- The window that ends held the frame, so the DAC received it (R87, R117). -/
theorem csHigh_wireAt_done {s : State} (hcs : s.csN = false) (hd : s.bus.drained = true)
    (hw : s.outcome = .ok → s.dac.window = wireBitsOf s.frame.bytes) :
    State.wireAt { s.csHigh.emit .csDeassert with st := .done } .done := by
  refine ⟨by simpa [csHigh_bus_of_drained hd] using hd, fun ho => ?_⟩
  have hok : s.outcome = .ok := by simpa using ho
  simp [csHigh_received hcs, windowVerdict_of_frame hd (hw hok)]

theorem drained_of_wireAt_firstSt {s t : State} (h : t.bus.drained = true) : t.wireAt s.firstSt := by
  cases hv : s.cfg.variant <;> simpa [State.firstSt, hv, State.wireAt] using h

/-- Under the drain law every step that times nothing out carries the wire on. -/
theorem StepTo.wireAt {s u : State} (h : StepTo s u) (hat : s.ctlAt s.st) (hcs : s.csN = !s.st.selected)
    (hw : s.wireAt s.st) (hlaw : s.drainLaw) (hm : s.env.move ≠ .reset) (hto : ¬ u.timedOut) : u.wireAt u.st := by
  cases h with
  | reset hr => exact absurd hr hm
  | shift => simpa using busShift_wireAt (fun hsel => by simp [hcs, hsel]) hw
  | boot _ hs => simp [hs, State.wireAt, Bus.drained]
  | noBoot | quiescent | hold | illegal | reentrant => exact hw
  | transmit _ _ _ hs =>
    rw [hs] at hw
    exact drained_of_wireAt_firstSt hw
  | init _ _ _ _ hs =>
    rw [hs] at hw
    exact hw
  | csOn _ _ hs | bCsOn _ _ hs =>
    rw [hs] at hw hcs
    exact ⟨by simpa [State.wireAt] using hw, csLow_window hcs⟩
  | en _ _ hs =>
    rw [hs] at hw hat
    obtain ⟨hd, hwin⟩ := hw
    obtain ⟨-, -, hi⟩ := hat
    simp [State.wireAt, State.pushedBits, hwin, hi, drained_pending hd, wireBitsOf]
  | txWait _ _ hs =>
    rw [hs] at hw
    cases hv : s.env.txe with
    | true => exact hw
    | false =>
      rw [hv] at hto
      exact notReady_wireAt (s := s.emit (.pollTxe false)) hw hto
  | pushHalf _ _ hs x y hp hx hy =>
    rw [hs] at hw hat
    obtain ⟨-, -, -, -, ht⟩ := hat
    have hlt := ((pushesPair_iff s).1 hp).2
    exact push_wireAt _ ht hw (afterPush_two_pushed (by omega) hx hy)
  | pushByte _ _ hs x hp hx =>
    rw [hs] at hw hat
    obtain ⟨-, -, hi, -, ht⟩ := hat
    exact push_wireAt _ ht hw (afterPush_one_pushed (by omega) hx)
  | drainFifo _ _ hs =>
    rw [hs] at hw
    unfold State.afterFtlvl at hto ⊢
    by_cases h0 : s.ftlvlAnswer = 0
    · rw [if_pos h0]; exact hw
    · rw [if_neg h0] at hto ⊢
      exact notReady_wireAt (s := s.emit (.pollFtlvl s.ftlvlAnswer)) hw hto
  | drainBsy _ _ hs =>
    rw [hs] at hw hat
    cases hb : s.env.bsy with
    | true =>
      rw [hb] at hto
      exact notReady_wireAt (s := s.emit (.pollBsy true)) hw hto
    | false =>
      obtain ⟨-, -, hi, -⟩ := hat
      obtain ⟨-, hbsy⟩ := hlaw
      have hd : s.bus.drained = true := hbsy.1 hb
      have hwin : s.dac.window ++ s.bus.pending = s.pushedBits := hw
      rw [drained_pending hd, List.append_nil, State.pushedBits, hi] at hwin
      exact ⟨hd, hwin⟩
  | dis _ _ hs =>
    rw [hs] at hw
    obtain ⟨hd, hwin⟩ := hw
    exact ⟨by simpa [disableBus_bus_of_drained hd] using hd, hwin⟩
  | csOff _ _ hs =>
    rcases hs with hs | hs <;> rw [hs] at hw hcs <;> obtain ⟨hd, hwin⟩ := hw
    · exact csHigh_wireAt_done hcs hd fun _ => hwin
    · exact csHigh_wireAt_done hcs hd hwin
  | sendHeld _ _ hs =>
    rw [hs] at hw
    simpa [hs] using issueSend_wireAt hw
  | sendReturned _ _ hs r =>
    rw [hs] at hw hcs
    exact sendReturn_wireAt ((State.issueSend_csN s).trans hcs) (issueSend_wireAt hw) r
  | retry _ _ hs | report _ _ hs =>
    rw [hs] at hw
    obtain ⟨hd, -⟩ := hw
    exact hd
  | attempt _ _ hs =>
    rw [hs] at hw
    exact drained_of_wireAt_firstSt hw
  | delay _ _ hs =>
    rw [hs] at hw
    exact hw

/-- Settles O50: what a step leaves on the wire, in the bus and in the DAC, state by state; the drain law is what makes the
last poll the end of the drain. -/
theorem wireCarriesTheFrame : Obligations.WireCarriesTheFrame := by
  rintro s t hc ⟨hcs, -⟩ hw hlaw hm h hto
  obtain ⟨u, hu, rfl⟩ := stepTo_of_step h
  obtain ⟨-, -, -, -, hat⟩ := (ctlInv_iff s).1 hc
  exact (wireInv_iff u).2 (hu.wireAt hat hcs ((wireInv_iff s).1 hw) hlaw hm hto)

end Sys2Proof.Machine

namespace Sys2Proof.Machine

/-! ## Ready answers end a transmit -/

/-- Neither the block nor its bus records a fault (R120). -/
theorem StepTo.faults_eq {s u : State} (h : StepTo s u) (hm : s.env.move = .block ∨ s.env.move = .shift) :
    u.faults = s.faults := by
  by_contra hne
  rcases h.faults_writer hne with hr | ⟨⟨r, hr⟩, -⟩ <;> rcases hm with hm | hm <;> simp [hm] at hr

/-- In one of the steps of a transmit, of either variant (R70 to R83). -/
def St.inTransmit (w : St) : Prop := w.isPolled = true ∨ w.isBlocking = true

theorem St.isPolled_of_isWait {w : St} : w.isWait = true → w.isPolled = true := by
  cases w <;> decide

/-- A wait is further from `DONE` than `DIS`. -/
theorem dis_le_readyLeft_of_isWait {s : State} (hw : s.st.isWait = true) : 2 ≤ s.readyLeft := by
  unfold State.readyLeft
  cases hs : s.st <;> simp only [hs, St.isWait, Bool.false_eq_true] at hw ⊢ <;> omega

/-- The wait goes on at the state's own cost, or has timed out at the cost of `DIS` (R80). -/
theorem notReady_readyLeft_le {s : State} {w : St} (hw : w.isWait = true) (hs : s.st = w) :
    (s.notReady w).readyLeft ≤ s.readyLeft ∧ (s.notReady w).st.isPolled = true := by
  subst hs
  rcases notReady_cases s s.st with ⟨-, he⟩ | ⟨-, -, -, he⟩ | ⟨-, -, -, he⟩ <;> rw [he]
  · exact ⟨le_rfl, St.isPolled_of_isWait hw⟩
  · exact ⟨dis_le_readyLeft_of_isWait hw, rfl⟩
  · exact ⟨le_rfl, St.isPolled_of_isWait hw⟩

/-- A push has fewer bytes left to wait for (R74). -/
theorem afterPush_readyLeft_lt {s : State} {k : Nat} (hs : s.st = .push) (hk : 1 ≤ k) (hle : s.idx.val + k ≤ 3) :
    (s.afterPush k).readyLeft < s.readyLeft ∧ (s.afterPush k).st.isPolled = true := by
  have hi : (s.idxPlus k).val = s.idx.val + k := Nat.mod_eq_of_lt (by omega)
  by_cases h3 : s.idxPlus k = 3
  · have hst : (s.afterPush k).st = .drainFifo := if_pos h3
    simp [State.readyLeft, State.remaining, hst, hs, St.isPolled]
    omega
  · have hst : (s.afterPush k).st = .txWait := if_neg h3
    simp [State.readyLeft, State.remaining, hst, hs, hi, St.isPolled]
    omega

theorem readyLeft_le (s : State) : s.readyLeft ≤ 12 := by
  unfold State.readyLeft State.remaining
  cases s.st <;> simp only <;> omega

/-- How far the block's step takes a transmit: towards `DONE` and never away from it, and nearer when answered ready. -/
def State.nears (s u : State) : Prop :=
  u.readyLeft ≤ s.readyLeft ∧ (u.st.inTransmit ∨ u.st = .done) ∧ (s.answeredReady → u.readyLeft < s.readyLeft)

theorem nears_of_lt {s u : State} (h : u.readyLeft < s.readyLeft) (hu : u.st.inTransmit ∨ u.st = .done) : s.nears u :=
  ⟨h.le, hu, fun _ => h⟩

/-- A wait answered not ready (R80) is no step nearer, and need not be. -/
theorem nears_of_notReady {s t : State} {w : St} (hw : w.isWait = true) (ht : t.st = w)
    (hl : t.readyLeft = s.readyLeft) (hr : ¬ s.answeredReady) : s.nears (t.notReady w) := by
  obtain ⟨hle, hst⟩ := notReady_readyLeft_le hw ht
  exact ⟨hle.trans_eq hl, .inl (.inl hst), fun h => absurd h hr⟩

/-- The block's step in a transmit: each state leads to a nearer one, but for a wait or a send answered not ready. -/
theorem StepTo.nears {s u : State} (h : StepTo s u) (hm : s.env.move = .block) (hf : s.faulted = false)
    (hp : s.st.inTransmit) (hat : s.ctlAt s.st) : s.nears u := by
  cases h with
  | csOn _ _ hs => exact nears_of_lt (by simp [State.readyLeft, hs]) (.inl (.inl rfl))
  | en _ _ hs =>
    rw [hs] at hat
    obtain ⟨-, -, hi⟩ := hat
    exact nears_of_lt (by simp [State.readyLeft, State.remaining, hs, hi]) (.inl (.inl rfl))
  | txWait _ _ hs =>
    cases hv : s.env.txe with
    | true => exact nears_of_lt (by simp [State.readyLeft, State.remaining, State.afterTxe, hs]) (.inl (.inl rfl))
    | false => exact nears_of_notReady (t := s.emit (.pollTxe false)) rfl hs rfl (by simp [State.answeredReady, hs, hv])
  | pushHalf _ _ hs x y hpair =>
    obtain ⟨-, hi⟩ := (pushesPair_iff s).1 hpair
    obtain ⟨hlt, hst⟩ := afterPush_readyLeft_lt (s := (s.pushBytes [x, y]).emit (.pushHalf x y)) (k := 2) hs (by omega)
      (by simpa using by omega)
    exact nears_of_lt hlt (.inl (.inl hst))
  | pushByte _ _ hs x =>
    rw [hs] at hat
    obtain ⟨-, -, hi, -, -⟩ := hat
    obtain ⟨hlt, hst⟩ := afterPush_readyLeft_lt (s := (s.pushBytes [x]).emit (.pushByte x)) (k := 1) hs le_rfl
      (by simpa using by omega)
    exact nears_of_lt hlt (.inl (.inl hst))
  | drainFifo _ _ hs =>
    by_cases h0 : s.ftlvlAnswer = 0
    · rw [h0]
      exact nears_of_lt (by simp [State.readyLeft, State.afterFtlvl, hs]) (.inl (.inl rfl))
    · rw [State.afterFtlvl, if_neg h0]
      exact nears_of_notReady (t := s.emit (.pollFtlvl _)) rfl hs rfl (by simpa only [State.answeredReady, hs] using h0)
  | drainBsy _ _ hs =>
    cases hb : s.env.bsy with
    | false => exact nears_of_lt (by simp [State.readyLeft, State.afterBsy, hs]) (.inl (.inl rfl))
    | true => exact nears_of_notReady (t := s.emit (.pollBsy true)) rfl hs rfl (by simp [State.answeredReady, hs, hb])
  | dis _ _ hs => exact nears_of_lt (by simp [State.readyLeft, hs]) (.inl (.inl rfl))
  | csOff _ _ hs => exact nears_of_lt (by rcases hs with hs | hs <;> simp [State.readyLeft, hs]) (.inr rfl)
  | bCsOn _ _ hs => exact nears_of_lt (by simp [State.readyLeft, hs]) (.inl (.inr rfl))
  | sendHeld _ _ hs hr =>
    refine ⟨by simp [State.readyLeft, hs], .inl (.inr (by simp [hs, St.isBlocking])), fun h => ?_⟩
    simp [State.answeredReady, hs, hr] at h
  | sendReturned _ _ hs => exact nears_of_lt (by simp [State.readyLeft, hs]) (.inl (.inr rfl))
  | _ => simp_all [St.inTransmit, St.isPolled, St.isBlocking]

/-! ## A responsive bus brings a transmit to `DONE` -/

/-- A transmit in progress that nothing has stopped. -/
def State.transmitting (s : State) : Prop := s.ctlInv ∧ s.faulted = false ∧ s.st.inTransmit

/-- The block's step and a shifting step keep a transmit going, or bring it to `DONE`. -/
theorem transmitting_step {s : State} (h : s.transmitting) (hm : s.env.move = .block ∨ s.env.move = .shift) :
    ∃ t, step s = .next t ∧ t.ctlInv ∧ t.faulted = false ∧ t.readyLeft ≤ s.readyLeft ∧
      (t.st.inTransmit ∨ t.st = .done) ∧ (s.env.move = .block → s.answeredReady → t.readyLeft < s.readyLeft) := by
  obtain ⟨hc, hf, hp⟩ := h
  rcases hm with hm | hm
  · obtain ⟨t, ht, hct⟩ := blockAlwaysSteps s hc
    obtain ⟨u, hu, rfl⟩ := stepTo_of_step ht
    obtain ⟨-, -, -, -, hat⟩ := (ctlInv_iff s).1 hc
    obtain ⟨hle, hst, hlt⟩ := hu.nears hm hf hp hat
    exact ⟨_, ht, hct, by simpa [State.faulted, hu.faults_eq (.inl hm)] using hf, hle, hst, fun _ => hlt⟩
  · have hleft : s.busShift.draw.readyLeft = s.readyLeft := by simp [State.readyLeft, State.remaining]
    exact ⟨_, step_shift hm, controlInvariantKept s _ hc (step_shift hm), by simpa [State.faulted] using hf, hleft.le,
      .inl (by simpa using hp), fun hb => by simp [hm] at hb⟩

theorem transmitting_goes {s t : State} (h : s.transmitting) (hm : s.env.move = .block ∨ s.env.move = .shift)
    (hg : s.goes t) :
    (t.transmitting ∨ t.st = .done) ∧ t.readyLeft ≤ s.readyLeft ∧
      (s.env.move = .block → s.answeredReady → t.readyLeft < s.readyLeft) := by
  obtain ⟨u, hu, he⟩ := hg
  obtain ⟨v, hv, hc, hf, hle, hst, hlt⟩ := transmitting_step h hm
  obtain rfl : v = u := Host.Outcome.next.inj (hv.symm.trans hu)
  rw [he]
  exact ⟨hst.imp_left fun hp => ⟨hc, hf, hp⟩, hle, hlt⟩

section
variable {run : Nat → State} (hrun : transmitRun run) (hnd : ∀ m, (run m).st ≠ .done)
include hrun hnd

/-- A transmit that never comes to `DONE` goes on for ever, no further from it. -/
theorem transmitting_run {n : Nat} (h : (run n).transmitting) (j : Nat) :
    (run (n + j)).transmitting ∧ (run (n + j)).readyLeft ≤ (run n).readyLeft := by
  obtain ⟨hgoes, hmoves, -⟩ := hrun
  induction j with
  | zero => exact ⟨h, le_rfl⟩
  | succ j ih =>
    obtain ⟨hj, hle⟩ := ih
    obtain ⟨hst, hle', -⟩ := transmitting_goes hj (hmoves _) (hgoes _)
    exact ⟨hst.resolve_right (hnd _), hle'.trans hle⟩

/-- The block gets its turn, and a responsive bus answers it ready in some turn there: that step is nearer to `DONE`. -/
theorem responsive_run_nears (hbus : responsiveBus run) {n : Nat} (h : (run n).transmitting) :
    ∃ m, (run m).transmitting ∧ (run m).readyLeft < (run n).readyLeft := by
  have ⟨hgoes, hmoves, hturns⟩ := hrun
  obtain ⟨-, hready, -⟩ := hbus
  obtain ⟨m, hnm, hblock⟩ := hturns n
  obtain ⟨j, rfl⟩ := Nat.exists_eq_add_of_le hnm
  obtain ⟨⟨-, hf, -⟩, -⟩ := transmitting_run hrun hnd h j
  obtain ⟨k, hk, hans⟩ := hready (n + j) _ ⟨hblock, hf, rfl⟩
  obtain ⟨i, rfl⟩ := Nat.exists_eq_add_of_le (hnm.trans hk)
  obtain ⟨hi, hle⟩ := transmitting_run hrun hnd h i
  rcases hans with ⟨⟨hb, -, -⟩, hr⟩ | hreset | hfaulted
  · obtain ⟨hst, -, hlt⟩ := transmitting_goes hi (hmoves _) (hgoes _)
    exact ⟨n + i + 1, hst.resolve_right (hnd _), (hlt hb hr).trans_le hle⟩
  · rcases hmoves (n + i) with hm | hm <;> simp [hm] at hreset
  · obtain ⟨-, hnf, -⟩ := hi
    simp [hnf] at hfaulted

end

/-- The ready steps left cannot fall for ever. -/
theorem responsive_run_done {run : Nat → State} (hrun : transmitRun run) (hbus : responsiveBus run) {n : Nat}
    (h : (run n).transmitting) : ∃ m, (run m).st = .done := by
  by_contra hno
  have hnd : ∀ m, (run m).st ≠ .done := fun m hm => hno ⟨m, hm⟩
  induction hk : (run n).readyLeft using Nat.strong_induction_on generalizing n with
  | _ k ih =>
    obtain ⟨m, hm, hlt⟩ := responsive_run_nears hrun hnd hbus h
    exact ih _ (hk ▸ hlt) hm rfl

/-- Settles O53: each step by how far it leaves the transmit from `DONE`, and a responsive run by the ready steps left. -/
theorem readyAnswersEndTheTransmit : Obligations.ReadyAnswersEndTheTransmit := by
  refine ⟨fun s hc hp hf => ⟨readyLeft_le s, fun hm => ?_⟩, fun run hrun hbus hc hf hp =>
    responsive_run_done hrun hbus ⟨hc, hf, hp⟩⟩
  obtain ⟨t, ht, -, -, hle, hst, hlt⟩ := transmitting_step ⟨hc, hf, hp⟩ hm
  exact ⟨t, ht, hle, or_assoc.1 hst, hlt⟩

end Sys2Proof.Machine

namespace Sys2Proof.Machine

/-! ## The answers of the polls -/

/-- A level of 0 has any width (R44). -/
theorem ftlvlFits_zero (c : Config) : c.ftlvlFits 0 = true := by
  simp [Config.ftlvlFits]

theorem exec_pollTxe {s : State} (hf : s.faulted = false) (hs : s.st = .txWait) (v : Bool) :
    exec (.pollTxe v) s = .next ((s.emit (.pollTxe v)).afterTxe v) :=
  issue_here _ hf hs

theorem exec_pollFtlvl {s : State} {n : FrameWord} (hf : s.faulted = false) (hs : s.st = .drainFifo)
    (hn : s.cfg.ftlvlFits n = true) : exec (.pollFtlvl n) s = .next ((s.emit (.pollFtlvl n)).afterFtlvl n) :=
  (if_pos hn).trans (issue_here _ hf hs)

theorem exec_pollBsy {s : State} (hf : s.faulted = false) (hs : s.st = .drainBsy) (b : Bool) :
    exec (.pollBsy b) s = .next ((s.emit (.pollBsy b)).afterBsy b) :=
  issue_here _ hf hs

/-- A FIFO level that is not 0 is not ready (R75). -/
theorem exec_pollFtlvl_notReady {s : State} {n : FrameWord} (hf : s.faulted = false) (hs : s.st = .drainFifo)
    (hn : s.cfg.ftlvlFits n = true) (h0 : n ≠ 0) :
    exec (.pollFtlvl n) s = .next ((s.emit (.pollFtlvl n)).notReady .drainFifo) := by
  rw [exec_pollFtlvl hf hs hn, State.afterFtlvl, if_neg h0]

/-- A not-ready answer stays in its wait or goes to `DIS` with `TIMEOUT` (R80). -/
theorem notReady_st (s : State) (w : St) :
    (s.notReady w).st = w ∨ ((s.notReady w).st = .dis ∧ (s.notReady w).outcome = .timeout) := by
  rcases notReady_cases s w with ⟨-, he⟩ | ⟨-, -, -, he⟩ | ⟨-, -, -, he⟩ <;> rw [he]
  · exact .inl rfl
  · exact .inr ⟨rfl, rfl⟩
  · exact .inl rfl

/-- What TXE's answer leads to (R73, R80). -/
theorem afterTxe_st (s : State) (v : Bool) :
    (s.afterTxe v).st = .push ∨ (s.afterTxe v).st = .txWait ∨
      ((s.afterTxe v).st = .dis ∧ (s.afterTxe v).outcome = .timeout) := by
  cases v with
  | true => exact .inl rfl
  | false => exact .inr (notReady_st s .txWait)

/-- What FTLVL's answer leads to (R75, R80). -/
theorem afterFtlvl_st (s : State) (n : FrameWord) :
    (s.afterFtlvl n).st = .drainBsy ∨ (s.afterFtlvl n).st = .drainFifo ∨
      ((s.afterFtlvl n).st = .dis ∧ (s.afterFtlvl n).outcome = .timeout) := by
  unfold State.afterFtlvl
  split
  · exact .inl rfl
  · exact .inr (notReady_st s .drainFifo)

/-- What BSY's answer leads to (R76, R80). -/
theorem afterBsy_st (s : State) (b : Bool) :
    (s.afterBsy b).st = .drainBsy ∨ ((s.afterBsy b).st = .dis ∧ (b = false ∨ (s.afterBsy b).outcome = .timeout)) := by
  cases b with
  | false => exact .inr ⟨rfl, .inl rfl⟩
  | true => exact (notReady_st s .drainBsy).imp_right fun ⟨hst, ho⟩ => ⟨hst, .inr ho⟩

/-- From `DRAIN_BSY` a step does not go back to `DRAIN_FIFO` (R75). -/
theorem StepTo.st_ne_drainFifo {s u : State} (h : StepTo s u) (hs : s.st = .drainBsy) : u.st ≠ .drainFifo := by
  cases h with
  | drainBsy =>
    rcases afterBsy_st (s.emit (.pollBsy s.env.bsy)) s.env.bsy with hst | ⟨hst, -⟩ <;> simp [hst]
  | _ => simp_all

/-- Settles O21: each poll by its answer; the control invariant leaves a byte in `TXWAIT`; `DRAIN_BSY` leads to itself, to
`DIS` or, by a reset, to `IDLE`. -/
theorem readyAnswers : Obligations.ReadyAnswers := by
  refine ⟨fun s hf => ⟨fun hs => exec_pollTxe hf hs true, fun hs => exec_pollTxe hf hs false,
    fun hs => exec_pollFtlvl hf hs (ftlvlFits_zero _), fun n hs h0 hn => exec_pollFtlvl_notReady hf hs hn h0,
    fun hs => exec_pollBsy hf hs false, fun hs => exec_pollBsy hf hs true⟩, fun s t hc h hst => ?_, fun s t h hs => ?_⟩
  · obtain ⟨-, -, -, -, hat⟩ := (ctlInv_iff t).1 (controlInvariantKept s t hc h)
    rw [hst] at hat
    obtain ⟨-, -, hi, -⟩ := hat
    omega
  · obtain ⟨u, hu, rfl⟩ := stepTo_of_step h
    exact hu.st_ne_drainFifo hs

/-- Under unbounded waits nothing is counted (R80). -/
theorem notReady_unbounded {s : State} {w : St} (hs : s.st = w) (hb : s.cfg.waitBound = .unbounded) :
    s.notReady w = s := by
  subst hs
  simp [State.notReady, hb]

/-- Under a bound the answer is counted, and the n-th ends the wait (R80). -/
theorem notReady_atMost {s : State} {w : St} {n : Nat} (hs : s.st = w) (hb : s.cfg.waitBound = .atMost n) :
    s.notReady w = if s.polls + 1 = n then { s with polls := s.polls + 1, outcome := .timeout, st := .dis }
      else { s with polls := s.polls + 1 } := by
  subst hs
  simp [State.notReady, hb]

/-- The poll `i` with the event `ev` and a not-ready answer, made in its wait (R80). -/
def State.pollsNotReady (s : State) (i : Instr) (ev : Event) : Prop :=
  (s.st = .txWait ∧ i = .pollTxe false ∧ ev = .pollTxe false) ∨
  (s.st = .drainFifo ∧ ∃ n, n ≠ 0 ∧ s.cfg.ftlvlFits n = true ∧ i = .pollFtlvl n ∧ ev = .pollFtlvl n) ∨
  (s.st = .drainBsy ∧ i = .pollBsy true ∧ ev = .pollBsy true)

theorem exec_pollsNotReady {s : State} {i : Instr} {ev : Event} (hf : s.faulted = false) (h : s.pollsNotReady i ev) :
    exec i s = .next ((s.emit ev).notReady s.st) := by
  rcases h with ⟨hs, rfl, rfl⟩ | ⟨hs, n, h0, hn, rfl, rfl⟩ | ⟨hs, rfl, rfl⟩ <;> rw [hs]
  · exact exec_pollTxe hf hs false
  · exact exec_pollFtlvl_notReady hf hs hn h0
  · exact exec_pollBsy hf hs true

/-- Settles O22: the three waits do the same `NotReady`, and after a timeout the three release steps keep the outcome. -/
theorem notReadyAnswers : Obligations.NotReadyAnswers := by
  refine ⟨fun s i ev hf h => ?_, fun s i hf h => ?_, fun s hf ho => ⟨fun hs => ?_, fun hs => ?_, fun hs => ?_⟩⟩
  · rw [exec_pollsNotReady hf h]
    refine ⟨fun hb => ?_, fun n hb => ?_⟩
    · exact congrArg _ (notReady_unbounded (s := s.emit ev) rfl hb)
    · exact (congrArg _ (notReady_atMost (s := s.emit ev) rfl hb)).trans (apply_ite ..)
  · rcases h with ⟨hs, rfl⟩ | ⟨hs, rfl⟩ | ⟨hs, rfl⟩
    · exact ⟨_, exec_pollTxe hf hs true, rfl⟩
    · exact ⟨_, exec_pollFtlvl hf hs (ftlvlFits_zero _), rfl⟩
    · exact ⟨_, exec_pollBsy hf hs false, rfl⟩
  · exact ⟨_, issue_here _ hf hs, rfl, ho, rfl⟩
  · exact ⟨_, issue_here _ hf (.inl hs), rfl, by simpa using ho, by simp⟩
  · exact ⟨_, issue_here _ hf ⟨hs, by simp [State.retries, ho], ho.symm⟩, rfl, rfl⟩

/-! ## The pushes -/

/-- Settles O23: after `POLL_TXE(1)` the pair joins the queue. -/
theorem pushPair : Obligations.PushPair := by
  intro s x y hf hs hmode hr hx hy ht
  have hx' : s.frame.byte? s.idx.val = some x := (byte?_eq_getElem? ..).trans hx
  have hy' : s.frame.byte? (s.idx.val + 1) = some y := (byte?_eq_getElem? ..).trans hy
  have hp : s.pushesPair = true := (pushesPair_iff s).2 ⟨hmode, by omega⟩
  refine ⟨by simp [State.ownOp, hs, State.pushOperand, hx', hy', hp], s.idxPlus 2, Nat.mod_eq_of_lt (by omega), ?_⟩
  have hexec : exec (.pushHalf x y) s = .next (((s.pushBytes [x, y]).emit (.pushHalf x y)).afterPush 2) :=
    issue_here _ hf ⟨hs, hp, hx', hy'⟩
  rw [hexec, pushBytes_lawful ht]
  rfl

/-- Settles O24: after `POLL_TXE(1)` the byte joins the queue. -/
theorem pushSingleByte : Obligations.PushSingleByte := by
  intro s x hf hs hmode hx ht
  have hx' : s.frame.byte? s.idx.val = some x := (byte?_eq_getElem? ..).trans hx
  have hi : s.idx ≠ 3 := fun hi => by simp [hi] at hx
  have hp : s.pushesPair = false := by
    rw [← Bool.not_eq_true, pushesPair_iff]
    rintro ⟨hm, hlt⟩
    rcases hmode with hb | hr
    · simp [hm] at hb
    · omega
  have ho : s.ownOp = some (.pushByte x) := by
    cases hy : s.frame.byte? (s.idx.val + 1) <;> simp [State.ownOp, hs, State.pushOperand, hx', hy, hp]
  refine ⟨ho, s.idxPlus 1, Nat.mod_eq_of_lt (by omega), ?_⟩
  have hexec : exec (.pushByte x) s = .next (((s.pushBytes [x]).emit (.pushByte x)).afterPush 1) :=
    (if_neg fun ⟨_, h3, _⟩ => hi h3).trans (issue_here _ hf ⟨hs, hp, hx'⟩)
  rw [hexec, pushBytes_lawful ht]
  rfl

end Sys2Proof.Machine

namespace Sys2Proof.Machine

/-! ## Release -/

theorem afterPush_st (s : State) (k : Nat) : (s.afterPush k).st = .drainFifo ∨ (s.afterPush k).st = .txWait :=
  ite_eq_or_eq ..

/-- `DIS` is entered on `POLL_BSY(0)`, or from a wait that has timed out (R77, R80). -/
theorem StepTo.enters_dis {s u : State} (h : StepTo s u) (hu : u.st = .dis) (hne : s.st ≠ .dis) :
    (s.st = .drainBsy ∧ u.trace = s.trace ++ [.pollBsy false]) ∨ (s.st.isWait = true ∧ u.outcome = .timeout) := by
  cases h with
  | txWait _ _ hs =>
    rcases afterTxe_st (s.emit (.pollTxe s.env.txe)) s.env.txe with hst | hst | ⟨-, ho⟩
    · simp [hst] at hu
    · simp [hst] at hu
    · exact .inr ⟨by rw [hs]; rfl, ho⟩
  | drainFifo _ _ hs =>
    rcases afterFtlvl_st (s.emit (.pollFtlvl s.ftlvlAnswer)) s.ftlvlAnswer with hst | hst | ⟨-, ho⟩
    · simp [hst] at hu
    · simp [hst] at hu
    · exact .inr ⟨by rw [hs]; rfl, ho⟩
  | drainBsy _ _ hs =>
    rcases afterBsy_st (s.emit (.pollBsy s.env.bsy)) s.env.bsy with hst | ⟨-, hb | ho⟩
    · simp [hst] at hu
    · exact .inl ⟨hs, by simp [hb]⟩
    · exact .inr ⟨by rw [hs]; rfl, ho⟩
  | pushHalf | pushByte =>
    rcases afterPush_st _ _ with hst | hst <;> rw [hst] at hu <;> cases hu
  | transmit | attempt =>
    have hfirst : s.firstSt = .dis := hu
    rw [firstSt_eq] at hfirst
    split at hfirst <;> cases hfirst
  | _ => simp_all

/-- Settles O26: a drained bus loses nothing, and only the three polls lead to `DIS`. -/
theorem busDisable : Obligations.BusDisable := by
  refine ⟨fun s hf hs => ⟨s.disableBus.bus, issue_here _ hf hs, State.disableBus_wire s, State.disableBus_sending s,
    disableBus_bus_of_drained⟩, fun s t h hst hne => ?_⟩
  obtain ⟨u, hu, rfl⟩ := stepTo_of_step h
  exact hu.enters_dis hst hne

/-- Settles O27: the pin rises, and of bus and DAC only what a rising edge does to them changes. -/
theorem chipSelectDeassert : Obligations.ChipSelectDeassert := by
  intro s hf hs
  have hexec : exec .csDeassert s = .next { s.csHigh.emit .csDeassert with st := .done } := issue_here _ hf hs
  exact ⟨s.csHigh.bus, s.csHigh.dac, hexec.trans (by simp), State.csHigh_wire s, State.csHigh_sending s,
    csHigh_bus_of_drained, fun hc => by simp [State.csHigh, hc]⟩

/-! ## Requests -/

/-- Settles O10: in `IDLE` without a fault the request is accepted, and there INIT is not in progress. -/
theorem transmitIsAccepted : Obligations.TransmitIsAccepted := by
  refine ⟨fun s c k hs hf => ?_, fun s hc hs => ?_⟩
  · have hexec : exec (.transmit c k) s = .next (s.acceptTransmit c k) := present_idle _ hf hs
    rw [hexec, State.acceptTransmit, firstSt_eq]
    rfl
  · obtain ⟨-, -, -, -, hat⟩ := (ctlInv_iff s).1 hc
    rwa [hs] at hat

/-- A request presented leaves the state, accepts it, or records `REENTRANT_REQUEST` (R121, R123). -/
theorem eq_of_present {s a t : State} (h : s.present a = .next t) : t = s ∨ t = a ∨ t = s.raiseFault .reentrantRequest := by
  rcases present_cases s a with ⟨-, he⟩ | ⟨-, -, he⟩ | ⟨-, -, he⟩ <;>
    obtain rfl := Host.Outcome.next.inj (he.symm.trans h)
  · exact .inl rfl
  · exact .inr (.inl rfl)
  · exact .inr (.inr rfl)

/-- Settles O34: every row presents its request, and each of the three answers writes no other field. -/
theorem requestFrames : Obligations.RequestFrames := by
  refine fun s t => ⟨fun i hi h => ?_, fun h => ?_, fun w h => ?_⟩
  · obtain ⟨c, k, hexec⟩ : ∃ c k, exec i s = s.present (s.acceptTransmit c k) := by
      rcases hi with ⟨c, k, rfl⟩ | ⟨k, rfl⟩ | ⟨k, rfl⟩ | ⟨k, rfl⟩ | ⟨k, rfl⟩ | ⟨k, rfl⟩ | ⟨k, rfl⟩ | ⟨c, k, rfl⟩ <;>
        exact ⟨_, k, rfl⟩
    rcases eq_of_present (hexec.symm.trans h) with rfl | rfl | rfl <;> rfl
  · rcases eq_of_present h with rfl | rfl | rfl <;> rfl
  · rcases eq_of_present h with rfl | rfl | rfl <;> rfl

/-! ## Chip-select, enable and the blocking send -/

/-- The pin goes low, and a falling edge opens a window (R105, R117). -/
theorem csLow_eq (s : State) :
    s.csLow = { s with csN := false, dac := if s.csN then { s.dac with window := [] } else s.dac } := by
  unfold State.csLow
  cases hc : s.csN with
  | true => rfl
  | false => exact congrArg (fun c => { s with csN := c }) hc

/-- Settles O19: `CS_ON` and `B_CS_ON` issue the same operation and differ in the state it leads to. -/
theorem chipSelectAssert : Obligations.ChipSelectAssert := by
  intro s hf
  have hexec (w : St) (hs : s.st = .csOn ∨ s.st = .bCsOn) (hw : (if s.st = .csOn then St.en else .bSend) = w) :
      exec .csAssert s = .next { s with
        csN := false
        dac := if s.csN then { s.dac with window := [] } else s.dac
        trace := s.trace ++ [.csAssert]
        st := w } := by
    refine (issue_here _ hf hs).trans ?_
    rw [csLow_eq, hw]
    rfl
  exact ⟨fun hs => hexec _ (.inl hs) (if_pos hs), fun hs => hexec _ (.inr hs) (if_neg (by simp [hs]))⟩

/-- Settles O20: `EN` leads to the first TXE poll. -/
theorem busEnable : Obligations.BusEnable :=
  fun _ hf hs => ⟨_, issue_here _ hf hs, rfl, rfl⟩

theorem exec_send3_held {s : State} (hf : s.faulted = false) (hs : s.st = .bSend) (hr : s.env.send = none) :
    exec (.send3 s.frame.word) s = .next s.issueSend :=
  (issue_here _ hf ⟨hs, rfl⟩).trans (by rw [hr])

theorem exec_send3_returned {s : State} {r : SendResult} (hf : s.faulted = false) (hs : s.st = .bSend)
    (hr : s.env.send = some r) : exec (.send3 s.frame.word) s = .next (s.issueSend.sendReturn r) :=
  (issue_here _ hf ⟨hs, rfl⟩).trans (by rw [hr])

/-- Settles O28: the call is issued once, and its return writes what R82 and R116 give. -/
theorem blockingSendReturns : Obligations.BlockingSendReturns := by
  intro s hf hs
  refine ⟨by simp only [State.ownOp, hs]; rfl, fun r hr => ?_, fun hr => ?_⟩
  · refine ⟨_, exec_send3_returned hf hs hr, (sendReturn_writes s.issueSend r).trans ?_, rfl, ?_⟩
    · cases r <;> simp [sendOutcome]
    · rw [State.sendReturn_trace, State.issueSend_trace]
      rfl
  · refine (exec_send3_held hf hs hr).trans (congrArg _ ((issueSend_writes s).trans ?_))
    rw [issueSend_bus, State.issueSend_trace]
    rfl

/-! ## The pin invariant -/

/-- A step that writes neither pin nor enable bit keeps the invariant where its state asks the same of them. -/
theorem pinInv_of_same {s u : State} (h : s.pinInv) (hcs : u.csN = s.csN) (hen : u.busEn = s.busEn) (hcfg : u.cfg = s.cfg)
    (hst : u.st.selected = s.st.selected ∧ u.st.enabled = s.st.enabled) : u.pinInv := by
  obtain ⟨hsel, hena⟩ := hst
  unfold State.pinInv
  rw [hcs, hen, hcfg, hsel, hena]
  exact h

theorem firstSt_released (s : State) : s.firstSt.selected = false ∧ s.firstSt.enabled = false := by
  rw [firstSt_eq]
  split <;> exact ⟨rfl, rfl⟩

/-- Every step but a reset keeps pin and enable bit as the state says (R85 items 5 and 8). -/
theorem StepTo.pinInv {s u : State} (h : StepTo s u) (hat : s.ctlAt s.st) (hp : s.pinInv) (hm : s.env.move ≠ .reset) :
    u.pinInv := by
  cases h with
  | reset hr => exact absurd hr hm
  | boot _ hs => exact ⟨by simp [hs, St.selected], fun hv => by simp_all [St.enabled]⟩
  | shift => exact pinInv_of_same hp (by simp) (by simp) (by simp) (by simp)
  | noBoot | quiescent | hold | illegal | reentrant => exact hp
  | transmit _ _ _ hs | attempt _ _ hs =>
    exact pinInv_of_same hp rfl rfl rfl (by rw [hs]; exact firstSt_released s)
  | init _ _ _ _ hs | retry _ _ hs | report _ _ hs | delay _ _ hs =>
    exact pinInv_of_same hp rfl rfl rfl (by rw [hs]; exact ⟨rfl, rfl⟩)
  | csOn _ _ hs | bCsOn _ _ hs =>
    obtain ⟨-, hena⟩ := hp
    rw [hs] at hena
    exact ⟨by simp [St.selected], by simpa [St.enabled] using hena⟩
  | en _ _ hs =>
    obtain ⟨hcs, -⟩ := hp
    rw [hs] at hcs
    exact ⟨hcs, fun _ => rfl⟩
  | dis _ _ hs =>
    obtain ⟨hcs, -⟩ := hp
    rw [hs] at hcs
    exact ⟨hcs, fun _ => rfl⟩
  | txWait _ _ hs =>
    rcases afterTxe_st (s.emit (.pollTxe s.env.txe)) s.env.txe with hst | hst | ⟨hst, -⟩ <;>
      exact pinInv_of_same hp (by simp) (by simp) (by simp) (by rw [hst, hs]; exact ⟨rfl, rfl⟩)
  | drainFifo _ _ hs =>
    rcases afterFtlvl_st (s.emit (.pollFtlvl s.ftlvlAnswer)) s.ftlvlAnswer with hst | hst | ⟨hst, -⟩ <;>
      exact pinInv_of_same hp (by simp) (by simp) (by simp) (by rw [hst, hs]; exact ⟨rfl, rfl⟩)
  | drainBsy _ _ hs =>
    rcases afterBsy_st (s.emit (.pollBsy s.env.bsy)) s.env.bsy with hst | ⟨hst, -⟩ <;>
      exact pinInv_of_same hp (by simp) (by simp) (by simp) (by rw [hst, hs]; exact ⟨rfl, rfl⟩)
  | pushHalf _ _ hs | pushByte _ _ hs =>
    rcases afterPush_st _ _ with hst | hst <;>
      exact pinInv_of_same hp rfl rfl rfl (by rw [hst, hs]; exact ⟨rfl, rfl⟩)
  | csOff _ _ hs =>
    obtain ⟨-, hena⟩ := hp
    refine ⟨by simp [St.selected], ?_⟩
    rcases hs with hs | hs <;> rw [hs] at hena <;> simpa [St.enabled] using hena
  | sendHeld => exact pinInv_of_same hp (by simp) (by simp) (by simp) (by simp)
  | sendReturned _ _ hs r =>
    obtain ⟨hcs, -⟩ := hp
    rw [hs] at hcs hat
    obtain ⟨hv, -⟩ := hat
    exact ⟨by simpa [St.selected] using hcs, fun hpol => by simp [hv] at hpol⟩

/-- Settles O49: a step by what it writes of the pin and the enable bit. -/
theorem pinInvariantKept : Obligations.PinInvariantKept := by
  intro s t hc hp hm h
  obtain ⟨u, hu, rfl⟩ := stepTo_of_step h
  obtain ⟨-, -, -, -, hat⟩ := (ctlInv_iff s).1 hc
  exact hu.pinInv hat hp hm

end Sys2Proof.Machine

namespace Sys2Proof.Machine

/-! ## One result for each request -/

/-- The results owed: one while a request is in progress (R79, R91). -/
def State.resultsDue (s : State) : Nat := if s.st = .idle then 0 else 1

theorem resultsDue_of_ne_idle {s : State} (h : s.st ≠ .idle) : s.resultsDue = 1 := if_neg h

theorem resultsOf_append (as bs : List Event) : resultsOf (as ++ bs) = resultsOf as ++ resultsOf bs :=
  List.filterMap_append

/-- The results of a trace are those before a state on the way and those since. -/
theorem resultsOf_eq_append {s₀ s : State} (h : s₀.trace <+: s.trace) :
    resultsOf s.trace = resultsOf s₀.trace ++ s.resultsSince s₀ := by
  obtain ⟨es, he⟩ := h
  rw [State.resultsSince, ← he, List.drop_left, resultsOf_append]

/-- The results reported and the results owed add up to the same before and after. -/
def State.keepsAccount (s u : State) : Prop :=
  (resultsOf u.trace).length + u.resultsDue = (resultsOf s.trace).length + s.resultsDue

/-- An event that is no result, within a request. -/
theorem keepsAccount_of_event {s u : State} {e : Event} (ht : u.trace = s.trace ++ [e]) (he : resultsOf [e] = [])
    (hs : s.st ≠ .idle) (hu : u.st ≠ .idle) : s.keepsAccount u := by
  rw [State.keepsAccount, ht, resultsOf_append, he, List.append_nil, resultsDue_of_ne_idle hs, resultsDue_of_ne_idle hu]

/-- No event, within a request. -/
theorem keepsAccount_of_silent {s u : State} (ht : u.trace = s.trace) (hs : s.st ≠ .idle) (hu : u.st ≠ .idle) :
    s.keepsAccount u := by
  rw [State.keepsAccount, ht, resultsDue_of_ne_idle hs, resultsDue_of_ne_idle hu]

theorem issueSend_keepsAccount {s : State} (hs : s.st = .bSend) : s.keepsAccount s.issueSend := by
  unfold State.issueSend
  split
  · rfl
  · exact keepsAccount_of_event rfl rfl (by simp [hs]) (by simp [hs])

/-- Of the steps of block and bus only `DONE`'s report ends a request, with its one result (R79, R91). -/
theorem StepTo.keepsAccount {s u : State} (h : StepTo s u) (hm : s.env.move = .block ∨ s.env.move = .shift) :
    s.keepsAccount u := by
  cases h with
  | shift => simp [State.keepsAccount, State.resultsDue]
  | quiescent | hold => rfl
  | csOn _ _ hs | en _ _ hs | dis _ _ hs | bCsOn _ _ hs | delay _ _ hs =>
    exact keepsAccount_of_event (by simp; rfl) rfl (by simp [hs]) (by simp)
  | csOff _ _ hs =>
    exact keepsAccount_of_event (by simp; rfl) rfl (by rcases hs with hs | hs <;> simp [hs]) (by simp)
  | txWait _ _ hs =>
    refine keepsAccount_of_event (State.afterTxe_trace ..) rfl (by simp [hs]) ?_
    rcases afterTxe_st (s.emit (.pollTxe s.env.txe)) s.env.txe with hst | hst | ⟨hst, -⟩ <;> simp [hst]
  | drainFifo _ _ hs =>
    refine keepsAccount_of_event (State.afterFtlvl_trace ..) rfl (by simp [hs]) ?_
    rcases afterFtlvl_st (s.emit (.pollFtlvl s.ftlvlAnswer)) s.ftlvlAnswer with hst | hst | ⟨hst, -⟩ <;> simp [hst]
  | drainBsy _ _ hs =>
    refine keepsAccount_of_event (State.afterBsy_trace ..) rfl (by simp [hs]) ?_
    rcases afterBsy_st (s.emit (.pollBsy s.env.bsy)) s.env.bsy with hst | ⟨hst, -⟩ <;> simp [hst]
  | pushHalf _ _ hs | pushByte _ _ hs =>
    refine keepsAccount_of_event rfl rfl (by simp [hs]) ?_
    rcases afterPush_st _ _ with hst | hst <;> rw [hst] <;> decide
  | sendHeld _ _ hs => exact issueSend_keepsAccount hs
  | sendReturned _ _ hs r =>
    exact (keepsAccount_of_silent (State.sendReturn_trace ..) (by simp [hs]) (by simp)).trans (issueSend_keepsAccount hs)
  | retry _ _ hs => exact keepsAccount_of_silent rfl (by simp [hs]) (by simp)
  | attempt _ _ hs =>
    exact keepsAccount_of_silent rfl (by simp [hs]) (by rw [State.initAttempt_st, firstSt_eq]; split <;> decide)
  | report _ _ hs =>
    have hdue := resultsDue_of_ne_idle (s := s) (by simp [hs])
    rw [State.keepsAccount, hdue]
    simp [State.resultsDue, resultsOf]
  | _ => simp_all

/-- What holds along a host run: the trace grows, no request is reentrant, and each request has its result or is the one in
progress, unless a fault is recorded. -/
def hostInv (s₀ : State) (p : HostProgram) (s : State) : Prop :=
  s₀.trace <+: s.trace ∧ s.faults.reentrantRequest = false ∧
  (s.faulted = false → (s.resultsSince s₀).length + s.resultsDue = p.length)

theorem reentrant_false_of_not_faulted {s : State} (h : s.faulted = false) : s.faults.reentrantRequest = false := by
  simp only [State.faulted, Bool.or_eq_false_iff] at h
  exact h.1

theorem cleanEntry_hostInv {s : State} (h : s.cleanEntry) : hostInv s [] s := by
  obtain ⟨hs, hf, -⟩ := h
  exact ⟨⟨[], List.append_nil _⟩, reentrant_false_of_not_faulted hf, fun _ => by
    simp [State.resultsSince, State.resultsDue, resultsOf, hs]⟩

/-- The host presents a request when every earlier one has its result: the block is in `IDLE` and takes it (R129). -/
theorem StepTo.hostInv_request {s₀ s u : State} {p : HostProgram} {r : Request} (h : StepTo s u)
    (hm : s.env.move = .request r) (hr : (s.resultsSince s₀).length = p.length) (hi : hostInv s₀ p s) :
    hostInv s₀ (p ++ [r]) u := by
  obtain ⟨hpre, hre, hcount⟩ := hi
  have hown (hu : u.trace = s.trace) (hne : u.st ≠ .idle) :
      (u.resultsSince s₀).length + u.resultsDue = (p ++ [r]).length := by
    rw [resultsDue_of_ne_idle hne, State.resultsSince, hu, List.length_append, ← hr]
    rfl
  cases h with
  | quiescent _ hf => exact ⟨hpre, hre, fun hnf => by simp [hf] at hnf⟩
  | transmit => exact ⟨hpre, hre, fun _ => hown rfl (by rw [State.acceptTransmit_st, firstSt_eq]; split <;> decide)⟩
  | init => exact ⟨hpre, hre, fun _ => hown rfl (by simp)⟩
  | illegal => exact ⟨hpre, hre, fun hnf => by simp [State.faulted, FaultSet.add] at hnf⟩
  | reentrant _ _ hf hs =>
    have hc := hcount hf
    rw [resultsDue_of_ne_idle hs] at hc
    omega
  | _ => simp_all

/-- Block and bus keep the account of results. -/
theorem StepTo.hostInv_run {s₀ s u : State} {p : HostProgram} (h : StepTo s u)
    (hm : s.env.move = .block ∨ s.env.move = .shift) (hi : hostInv s₀ p s) : hostInv s₀ p u := by
  obtain ⟨hpre, hre, hcount⟩ := hi
  obtain ⟨es, ht, -⟩ := h.trace_append (by rcases hm with hm | hm <;> simp [hm])
  have hpre' : s₀.trace <+: u.trace := hpre.trans ⟨es, ht.symm⟩
  have hfaults := h.faults_eq hm
  refine ⟨hpre', by rwa [hfaults], fun hf => ?_⟩
  have hc := hcount (by rwa [State.faulted, ← hfaults])
  have hk : (resultsOf u.trace).length + u.resultsDue = (resultsOf s.trace).length + s.resultsDue := h.keepsAccount hm
  rw [resultsOf_eq_append hpre, resultsOf_eq_append hpre', List.length_append, List.length_append] at hk
  omega

theorem HostRun.hostInv {s₀ s : State} {p : HostProgram} (h : HostRun s₀ p s) : hostInv s₀ p s := by
  induction h with
  | launch h => exact cleanEntry_hostInv h
  | request _ hm hr hg ih =>
    obtain ⟨v, hv, he⟩ := hg
    obtain ⟨u, hu, rfl⟩ := stepTo_of_step hv
    rw [he]
    exact hu.hostInv_request hm hr ih
  | run _ hm hg ih =>
    obtain ⟨v, hv, he⟩ := hg
    obtain ⟨u, hu, rfl⟩ := stepTo_of_step hv
    rw [he]
    exact hu.hostInv_run hm ih

/-- Settles O31: outside INIT `DONE` always reports, and a host run keeps the account of results. -/
theorem resultToTheHost : Obligations.ResultToTheHost := by
  refine ⟨fun s hf hs hi => ?_, fun s₀ s p h => ?_⟩
  · have hr : s.retries = false := by simp [State.retries, hi]
    refine ⟨by simp [State.ownOp, hs, hr], (issue_here _ hf ⟨hs, hr, rfl⟩).trans ?_⟩
    rw [← hi]
    rfl
  · obtain ⟨-, hre, hcount⟩ := h.hostInv
    refine ⟨hre, hcount, fun hf hs => ⟨h, ?_, hs, hf⟩⟩
    simpa [State.resultsDue, hs] using hcount hf

end Sys2Proof.Machine

namespace Sys2Proof.Machine

/-! ## INIT -/

/-- Settles O13: in `IDLE` without a fault the request is accepted by R89. -/
theorem initIsAccepted : Obligations.InitIsAccepted :=
  fun s hs hf => present_idle s.acceptInit hf hs

/-- Settles O33: `I_TX` has no row, so the block's step is the attempt itself (R90). -/
theorem initAttemptStep : Obligations.InitAttemptStep := by
  intro s hf hs hm
  rw [step_iTx hm hf hs, State.initAttempt, firstSt_eq]

/-- Settles O30: `I_DELAY` issues the delay of the configuration (R92), whose default is R12's. -/
theorem delayBetweenAttempts : Obligations.DelayBetweenAttempts :=
  ⟨fun s hf hs => ⟨by simp only [State.ownOp, hs], issue_here _ hf ⟨hs, rfl⟩⟩, rfl⟩

theorem attemptsLeft_iff (s : State) :
    s.attemptsLeft = true ↔ s.cfg.maxAttempts = .unbounded ∨ ∃ n, s.cfg.maxAttempts = .atMost n ∧ s.attempts < n := by
  unfold State.attemptsLeft
  cases s.cfg.maxAttempts <;> simp

/-- Inside INIT `DONE` retries on `BUSY` while attempts are left (R91). -/
theorem retries_iff_of_inInit {s : State} (hi : s.inInit = true) :
    s.retries = true ↔
      s.outcome = .busy ∧ (s.cfg.maxAttempts = .unbounded ∨ ∃ n, s.cfg.maxAttempts = .atMost n ∧ s.attempts < n) := by
  rw [← attemptsLeft_iff]
  simp [State.retries, hi]

/-- Settles O32: the two cases are those of `retries`; a `DONE` that does not retry reports. -/
theorem initRetriesOrReports : Obligations.InitRetriesOrReports := by
  intro s hf hs hi
  rw [← retries_iff_of_inInit hi]
  refine ⟨fun hr hm => step_done_retries hm hf hs hr, fun hr => ?_⟩
  have hr : s.retries = false := Bool.eq_false_of_not_eq_true hr
  exact ⟨by simp [State.ownOp, hs, hr], issue_here _ hf ⟨hs, hr, rfl⟩⟩

/-- A result is reported from `DONE` alone, and it is the outcome (R79, R91). -/
theorem exec_result_eq_next {s t : State} {r : Result} (h : exec (.result r) s = .next t) :
    s.st = .done ∧ s.outcome = r ∧ t = { (s.emit (.result r)) with inInit := false, st := .idle } := by
  obtain ⟨-, ⟨hs, -, hr⟩, ht⟩ := (issue_eq_next_iff ..).1 h
  exact ⟨hs, hr.symm, ht.symm⟩

/-- Settles O55: each invariant gives its part in `DONE`, and reporting writes neither frame, pin, bus nor DAC (R94). -/
theorem initLeavesTheLinkValidated : Obligations.InitLeavesTheLinkValidated := by
  intro s t hc hp hw hi h
  obtain ⟨hs, ho, rfl⟩ := exec_result_eq_next h
  obtain ⟨-, -, -, hinit, -⟩ := (ctlInv_iff s).1 hc
  obtain ⟨hframe, -⟩ := hinit hi
  obtain ⟨hcs, hen⟩ := hp
  have hdone : s.wireAt .done := hs ▸ (wireInv_iff s).1 hw
  obtain ⟨-, hrec⟩ := hdone
  rw [hs] at hcs hen
  refine ⟨hframe, rfl, rfl, hcs, hen, ?_⟩
  have hlast := hrec ho
  rwa [hframe] at hlast

end Sys2Proof.Machine

namespace Sys2Proof.Machine

/-! ## The shifting step (R112) -/

theorem busShift_disabled {s : State} (h : s.busEn = false) : s.busShift = s := by
  simp [State.busShift, h]

/-- A byte in the shifter gives its first bit to the wire. -/
theorem busShift_bit {s : State} {b : Bool} {bs : List Bool} (hen : s.busEn = true) (hsh : s.bus.shifter = b :: bs) :
    s.busShift = ({ s with bus := { s.bus with shifter := bs } }).shiftOut [b] := by
  simp [State.busShift, hen, hsh]

/-- An idle shifter takes the byte at the head of the queue. -/
theorem busShift_load {s : State} {x : Byte} {q : List Byte} (hen : s.busEn = true) (hsh : s.bus.shifter = [])
    (hq : s.bus.queue = x :: q) :
    s.busShift = { s with bus := { s.bus with queue := q, shifter := wireBits x } } := by
  simp [State.busShift, hen, hsh, hq]

/-- A shifting step leaves the machine, moves the shifter's first bit, or loads the queue's first byte. -/
theorem busShift_cases (s : State) :
    s.busShift = s ∨
    (∃ b bs, s.bus.shifter = b :: bs ∧
      s.busShift = ({ s with bus := { s.bus with shifter := bs } }).shiftOut [b]) ∨
    (∃ x q, s.bus.shifter = [] ∧ s.bus.queue = x :: q ∧
      s.busShift = { s with bus := { s.bus with queue := q, shifter := wireBits x } }) := by
  unfold State.busShift
  split
  · split
    · next hsh => exact .inr (.inl ⟨_, _, hsh, rfl⟩)
    · next hsh hq => exact .inr (.inr ⟨_, _, hsh, hq, rfl⟩)
    · exact .inl rfl
  · exact .inl rfl

/-- What is on the wire and then what is pending is the same before and after a shifting step. -/
theorem busShift_wire_pending (s : State) :
    s.busShift.bus.wire ++ s.busShift.bus.pending = s.bus.wire ++ s.bus.pending := by
  rcases busShift_cases s with h | ⟨b, bs, hsh, h⟩ | ⟨x, q, hsh, hq, h⟩
  · rw [h]
  · simp [h, State.shiftOut, Bus.pending, hsh]
  · simp [h, Bus.pending, hsh, hq, wireBitsOf]

/-- The bits shifted join the DAC's window while chip-select is low, and only then (R117). -/
theorem busShift_dac (s : State) :
    ∃ bits, s.busShift.bus.wire = s.bus.wire ++ bits ∧
      s.busShift.dac = if s.csN then s.dac else { s.dac with window := s.dac.window ++ bits } := by
  rcases busShift_cases s with h | ⟨b, bs, -, h⟩ | ⟨x, q, -, -, h⟩
  · exact ⟨[], by simp [h]⟩
  · exact ⟨[b], by rw [h]; exact ⟨rfl, rfl⟩⟩
  · exact ⟨[], by simp [h]⟩

/-- Settles O57: each case is one of the shifting step's, and each keeps what was pushed in order. -/
theorem shiftingStep : Obligations.ShiftingStep := by
  intro s hm
  refine ⟨_, step_shift hm, by simp [State.sameTuple], busShift_wire_pending s, fun hen => ?_, fun hen b bs hsh => ?_,
    fun hen hsh x q hq => ?_, fun hsh hq => ?_⟩
  · rw [busShift_disabled hen]
  · rw [busShift_bit hen hsh]
    exact ⟨rfl, rfl, rfl⟩
  · rw [busShift_load hen hsh hq]
    exact ⟨rfl, rfl, rfl⟩
  · rw [busShift_of_drained ((drained_iff _).2 ⟨hq, hsh⟩)]

/-! ## What may be lost outside the bus contract (R114) -/

/-- A push adds its bits behind what is pending, and may lose bits of either, but reorders none. -/
theorem pushBytes_pending_sublist (s : State) (bs : List Byte) :
    (s.pushBytes bs).bus.pending.Sublist (s.bus.pending ++ wireBitsOf bs) := by
  have hjoined : Bus.pending { s.bus with queue := s.bus.queue ++ bs } = s.bus.pending ++ wireBitsOf bs := by
    simp [Bus.pending, wireBitsOf_append]
  rw [← hjoined]
  unfold State.pushBytes
  dsimp only
  split
  · exact List.Sublist.refl _
  · exact lose_pending_sublist ..

theorem disableBus_pending_sublist (s : State) : s.disableBus.bus.pending.Sublist s.bus.pending := by
  unfold State.disableBus
  dsimp only
  split
  · exact List.Sublist.refl _
  · exact lose_pending_sublist ..

/-- A rising chip-select does to the bus in flight what disabling it does. -/
theorem csHigh_bus {s : State} (h : s.csN = false) : s.csHigh.bus = s.disableBus.bus := by
  simp [State.csHigh, State.disableBus, h]

theorem csHigh_pending_sublist (s : State) : s.csHigh.bus.pending.Sublist s.bus.pending := by
  cases hc : s.csN with
  | true => simp [State.csHigh, hc]
  | false =>
    rw [csHigh_bus hc]
    exact disableBus_pending_sublist s

/-- In `PUSH` the answer `POLL_TXE(1)` has just been read (R74). -/
theorem lastEvent_of_push {s : State} (hc : s.ctlInv) (hs : s.st = .push) :
    s.trace.getLast? = some (.pollTxe true) := by
  obtain ⟨-, -, -, -, hat⟩ := (ctlInv_iff s).1 hc
  rw [hs] at hat
  obtain ⟨-, -, -, -, hlast⟩ := hat
  exact hlast

/-- Settles O58: each operation keeps an ordered part of what was pending and pushed, and none shifts. -/
theorem outOfContractLosesAtMost : Obligations.OutOfContractLosesAtMost := by
  refine ⟨fun s t => ⟨fun x h => ?_, fun x y h => ?_, ?_⟩, fun s hc hs => lastEvent_of_push hc hs⟩
  · rw [exec_pushByte_eq_next h]
    exact ⟨State.pushBytes_wire s [x], by simpa [wireBitsOf] using pushBytes_pending_sublist s [x]⟩
  · rw [eq_of_issue h]
    exact ⟨State.pushBytes_wire s [x, y], by simpa [wireBitsOf] using pushBytes_pending_sublist s [x, y]⟩
  · rintro (h | h) <;> rw [eq_of_issue h]
    · exact ⟨State.disableBus_wire s, disableBus_pending_sublist s⟩
    · exact ⟨State.csHigh_wire s, csHigh_pending_sublist s⟩

/-! ## What the DAC takes of a window (R117) -/

/-- Any `n` bits are the bits of a word in wire order. -/
theorem exists_wireBits_eq {n : Nat} {bits : List Bool} (h : bits.length = n) : ∃ v : BitVec n, wireBits v = bits := by
  subst h
  exact ⟨.ofBoolListBE bits, List.ext_getElem (by simp) fun i _ hi => by simp [wireBits, hi]⟩

/-- 24 bits in wire order are the bits of the word they spell. -/
theorem wireBits_wordOfWire {bits : List Bool} (h : bits.length = 24) : wireBits (wordOfWire bits) = bits := by
  obtain ⟨f, rfl⟩ := exists_wireBits_eq h
  rw [wordOfWire_wireBits]

/-- A window is received as `f` exactly when its bits are those of `f` and none is in flight. -/
theorem windowVerdict_eq_some_iff (s : State) (f : FrameWord) :
    s.windowVerdict = some f ↔ s.bus.drained = true ∧ s.dac.window = wireBits f := by
  unfold State.windowVerdict
  constructor
  · intro h
    split at h
    · next hframe =>
      obtain ⟨hd, hlen⟩ := hframe
      obtain rfl := Option.some.inj h
      exact ⟨hd, (wireBits_wordOfWire hlen).symm⟩
    · cases h
  · rintro ⟨hd, hw⟩
    simp [hd, hw, wordOfWire_wireBits]

theorem windowVerdict_eq_none {s : State} (h : s.dac.window.length < 24 ∨ s.bus.drained = false) :
    s.windowVerdict = none := by
  refine if_neg fun ⟨hd, hlen⟩ => ?_
  rcases h with h | h
  · omega
  · simp [hd] at h

theorem csLow_received (s : State) : s.csLow.dac.received = s.dac.received := by
  unfold State.csLow
  split <;> rfl

/-- Settles O59: the entry is the window's verdict, and the window holds just the bits shifted while it is open. -/
theorem dacTakesAFrame : Obligations.DacTakesAFrame := by
  refine ⟨fun s t hcs h => ?_, fun s t hcs h => ?_, fun s t hm h => ?_⟩
  · rw [eq_of_issue h]
    exact ⟨s.windowVerdict, csHigh_received hcs, windowVerdict_eq_some_iff s, windowVerdict_eq_none⟩
  · rw [eq_of_issue h]
    exact ⟨csLow_window hcs, csLow_received s⟩
  · obtain rfl := Host.Outcome.next.inj ((step_shift hm).symm.trans h)
    obtain ⟨bits, hwire, hdac⟩ := busShift_dac s
    exact ⟨fun hcs => by simp [hdac, hcs], fun hcs => ⟨bits, hwire, by simp [hdac, hcs]⟩⟩

/-! ## The blocking send on the wire (R116) -/

theorem sendReturn_ok_bus (s : State) :
    (s.sendReturn .ok).bus = ⟨[], [], s.bus.wire ++ (s.bus.pending ++ wireBits s.frame.word), false⟩ := rfl

theorem sendReturn_busy_bus (s : State) : (s.sendReturn .busy).bus = { s.bus with sending := false } := rfl

theorem sendReturn_error_bus (s : State) :
    (s.sendReturn .error).bus =
      { s.bus with wire := s.bus.wire ++ (wireBits s.frame.word).take s.env.sent, sending := false } := rfl

/-- Settles O29: issuing the call moves no bit, and each result moves those R116 gives it. -/
theorem blockingSendOnTheWire : Obligations.BlockingSendOnTheWire := by
  intro s t r hf hs hr h
  obtain rfl := Host.Outcome.next.inj ((exec_send3_returned hf hs hr).symm.trans h)
  have hbusEn : (s.issueSend.sendReturn r).busEn = s.env.sendBusEn := by simp
  refine ⟨by simp, hbusEn, ?_, ?_, ?_⟩ <;> rintro rfl
  · rw [sendReturn_ok_bus, issueSend_bus, State.issueSend_frame, List.append_assoc]
    exact ⟨rfl, rfl, rfl⟩
  · rw [sendReturn_busy_bus, issueSend_bus]
    exact ⟨rfl, rfl, rfl⟩
  · refine ⟨s.env.sent, ?_⟩
    rw [sendReturn_error_bus, issueSend_bus, State.issueSend_frame, State.issueSend_env]
    exact ⟨rfl, rfl, rfl⟩

end Sys2Proof.Machine

namespace Sys2Proof.Machine

/-! ## The two faults and the faulted block -/

/-- Whatever its word and its row, a request runs as the presentation of some accepted state (R123). -/
theorem exec_request_present (r : Request) (s : State) : ∃ a, exec (decodeRequest r) s = s.present a := by
  rcases exec_request_cases r s with ⟨_, _, -, h⟩ | ⟨-, -, h⟩ | ⟨_, -, -, h⟩
  · exact ⟨_, h⟩
  · exact ⟨_, h⟩
  · exact ⟨_, h⟩

/-- Settles O15: outside `IDLE` a presentation ignores what it would accept, and in `IDLE` an ILLEGAL word's acceptance is the
fault. -/
theorem theTwoFaults : Obligations.TheTwoFaults := by
  intro s r hf hm
  rw [step_request hm]
  refine ⟨fun hs => ?_, fun w hs hd => ?_⟩
  · obtain ⟨a, h⟩ := exec_request_present r s
    rw [h, present_reentrant a hf hs]
    rfl
  · obtain ⟨-, hword⟩ := frameRequestsExpandToTransmit
    rw [hword, hd]
    exact congrArg drawNext (present_idle (s.raiseFault .illegalRequest) hf hs)

/-- A faulted block takes no step: of the agents only the reset input and the bus controller act, and shifting writes no
element of the tuple (R121). -/
theorem StepTo.sameTuple_of_faulted {s u : State} (h : StepTo s u) (hf : s.faulted = true) (hm : s.env.move ≠ .reset) :
    s.sameTuple u := by
  cases h with
  | reset hr => exact absurd hr hm
  | shift => simp [State.sameTuple]
  | noBoot | quiescent => simp [State.sameTuple]
  | _ => simp_all

/-- Settles O16: the step of a faulted block is no fault of the machine, and it keeps the tuple unless it is a reset. -/
theorem faultedBlockIsQuiescent : Obligations.FaultedBlockIsQuiescent := by
  intro s hf
  refine ⟨fun hm => ?_, fun r => ?_, fun hm => ⟨_, step_reset hm, rfl⟩, fun s₀ p hend => ?_⟩
  · rcases step_cases s with ⟨u, hu, h⟩ | ⟨-, hnf, -⟩
    · exact ⟨u.draw, h, hu.sameTuple_of_faulted hf hm⟩
    · simp [hf] at hnf
  · obtain ⟨a, h⟩ := exec_request_present r s
    rw [h, present_faulted a hf]
  · obtain ⟨-, -, -, hnf⟩ := hend
    simp [hf] at hnf

/-! ## The results a configuration can report -/

/-- INIT has no attempt left exactly at a numeric limit that is reached (R91). -/
theorem attemptsLeft_eq_false_iff (s : State) :
    s.attemptsLeft = false ↔ ∃ n, s.cfg.maxAttempts = .atMost n ∧ n ≤ s.attempts := by
  unfold State.attemptsLeft
  cases s.cfg.maxAttempts <;> simp

/-- A `DONE` that reports does not retry (R91). -/
theorem retries_eq_false_of_exec_result {s t : State} {r : Result} (h : exec (.result r) s = .next t) :
    s.retries = false := by
  obtain ⟨-, ⟨-, hr, -⟩, -⟩ := (issue_eq_next_iff ..).1 h
  exact hr

/-- Settles O54: the result is the outcome of `DONE`, where the control invariant holds R122's table, and a `BUSY` that INIT
does not retry has no attempt left. -/
theorem resultsByConfiguration : Obligations.ResultsByConfiguration := by
  intro s t r hc h
  have hr := retries_eq_false_of_exec_result h
  obtain ⟨hs, rfl, -⟩ := exec_result_eq_next h
  obtain ⟨-, -, -, -, hat⟩ := (ctlInv_iff s).1 hc
  rw [hs] at hat
  obtain ⟨hpolled, hblocking⟩ := hat
  refine ⟨fun hv hb => (hpolled hv).2 hb, fun hv _ _ => (hpolled hv).1, fun hv => ?_, fun hi ho => ?_⟩
  · have hne := hblocking hv
    cases ho : s.outcome with
    | ok => exact .inl rfl
    | busy => exact .inr (.inl rfl)
    | error => exact .inr (.inr rfl)
    | timeout => exact absurd ho hne
  · exact (attemptsLeft_eq_false_iff s).1 (by simpa [State.retries, hi, ho] using hr)

end Sys2Proof.Machine

namespace Sys2Proof.Machine

/-! ## CLEAN_ENTRY and the invariants -/

/-- `sh` idle, no send in progress and `in_init = 0` leave nothing of the control invariant to ask in `IDLE` but a legal
configuration. -/
theorem ctlInv_of_cleanEntry {s : State} (h : s.cleanEntry) (hl : s.cfg.legal = true) (hi : s.inInit = false) :
    s.ctlInv := by
  obtain ⟨hs, -, -, -, hd, hsend⟩ := h
  obtain ⟨-, hsh⟩ := (drained_iff s.bus).1 hd
  exact (ctlInv_iff s).2 ⟨hl, by simp [hsh], by simp [hsend], by simp [State.initFrame, hi], by rw [hs]; exact hi⟩

theorem pinInv_of_cleanEntry {s : State} (h : s.cleanEntry) : s.pinInv := by
  obtain ⟨hs, -, hcs, hen, -, -⟩ := h
  rw [State.pinInv, hs]
  exact ⟨hcs, hen⟩

theorem wireInv_of_cleanEntry {s : State} (h : s.cleanEntry) : s.wireInv := by
  obtain ⟨hs, -, -, -, hd, -⟩ := h
  rw [wireInv_iff, hs]
  exact hd

/-- Before the first request the reader of the trace is at its start. -/
theorem traceInv_of_idle {s : State} (hs : s.st = .idle) (ht : s.trace = []) : s.traceInv := by
  simp [State.traceInv, State.shape, hs, ht]

/-- No blocking send is in progress outside `B_SEND` (R82). -/
theorem not_sending_of_ne_bSend {s : State} (hc : s.ctlInv) (hs : s.st ≠ .bSend) : s.bus.sending = false := by
  obtain ⟨-, -, hsend, -, -⟩ := (ctlInv_iff s).1 hc
  exact Bool.eq_false_of_not_eq_true fun h => hs (hsend h)

/-! ## The result that ends a request -/

/-- A result is reported without a fault recorded (R121). -/
theorem not_faulted_of_exec_result {s t : State} {r : Result} (h : exec (.result r) s = .next t) : s.faulted = false :=
  ((issue_eq_next_iff ..).1 h).1

/-- Settles O56: in `DONE` the pin and the enable bit are released and the bus drained, and reporting writes none of them. -/
theorem okResultRestoresCleanEntry : Obligations.OkResultRestoresCleanEntry := by
  intro s t hc hp hw h
  have hf := not_faulted_of_exec_result h
  obtain ⟨hs, ho, rfl⟩ := exec_result_eq_next h
  have hsend := not_sending_of_ne_bSend hc (by simp [hs])
  obtain ⟨hcs, hen⟩ := hp
  have hdone : s.wireAt .done := hs ▸ (wireInv_iff s).1 hw
  obtain ⟨hd, hrec⟩ := hdone
  rw [hs] at hcs hen
  exact ⟨⟨rfl, hf, hcs, hen, hd, hsend⟩, hrec ho⟩

/-! ## The platform's boot -/

/-- The boot drives the pin high, clears the enable bit of a POLLED block and drains the bus (R136 steps 2 to 4). -/
theorem platformBoot_cleanEntry {s : State} (hs : s.st = .idle) (hf : s.faulted = false)
    (hsend : s.bus.sending = false) : s.platformBoot.cleanEntry := by
  refine ⟨by simp [hs], by simpa [State.faulted] using hf, by simp, fun hv => ?_, by simp [Bus.drained], by simp [hsend]⟩
  have hv' : s.cfg.variant = .polled := by simpa using hv
  simp [hv']

/-- Driving a high pin high is no edge (R117). -/
theorem csHigh_of_high {s : State} (h : s.csN = true) : s.csHigh = s := if_pos h

/-- Pin, enable bit and bus are already as the boot would leave them (R135 items 2 to 4). -/
theorem platformBoot_of_cleanEntry {s : State} (h : s.cleanEntry) : s.platformBoot = s := by
  obtain ⟨-, -, hcs, hen, hd, -⟩ := h
  obtain ⟨hq, hsh⟩ := (drained_iff s.bus).1 hd
  have hbus : ({ s.bus with queue := [], shifter := [] } : Bus) = s.bus := by rw [← hq, ← hsh]
  have hbit : (if s.cfg.variant = .polled then false else s.busEn) = s.busEn := by
    split
    · next hv => exact (hen hv).symm
    · rfl
  simp only [State.platformBoot, csHigh_of_high hcs, hbus, hbit]

/-- The boot brings back the invariants that a reset in the middle of a request breaks (R134, R136). -/
theorem platformBoot_invariants {s : State} (hm : s.env.move = .configure) (hs : s.st = .idle) (hf : s.faulted = false)
    (ht : s.trace = []) (hc : s.ctlInv) :
    s.platformBoot.cleanEntry ∧ s.platformBoot.ctlInv ∧ s.platformBoot.pinInv ∧ s.platformBoot.wireInv ∧
      s.platformBoot.traceInv := by
  have hclean := platformBoot_cleanEntry hs hf (not_sending_of_ne_bSend hc (by simp [hs]))
  exact ⟨hclean, (StepTo.boot hm hs hf ht).ctlInv hc, pinInv_of_cleanEntry hclean, wireInv_of_cleanEntry hclean,
    traceInv_of_idle (by simp [hs]) (by simp [ht])⟩

/-- Settles O60: the platform acts only before the first request, and where it finds CLEAN_ENTRY it writes what is there. -/
theorem platformBootEstablishesCleanEntry : Obligations.PlatformBootEstablishesCleanEntry := by
  intro s hm
  refine ⟨_, step_configure hm, fun hs hf ht => ?_, fun hno => ?_⟩
  · rw [if_pos ((beforeFirstRequest_iff s).2 ⟨hs, hf, ht⟩)]
    exact ⟨by simp, by simp, by simp, by simp, by simp, by simp, by simp [State.sameTuple],
      platformBoot_invariants hm hs hf ht⟩
  · split
    · next hb =>
      have hclean := hno.resolve_left (not_not_intro ((beforeFirstRequest_iff s).1 hb))
      rw [platformBoot_of_cleanEntry hclean]
    · rfl

/-! ## TRANSMIT after any earlier run -/

/-- Settles O18: acceptance writes `frame`, `idx` and `outcome` from the request alone, and neither `polls` nor `attempts`
(R70). -/
theorem transmitForgetsTheEarlierRun : Obligations.TransmitForgetsTheEarlierRun :=
  fun s _ _ _ _ _ c k hs hf => ⟨s.acceptTransmit c k, present_idle _ hf hs, present_idle _ hf hs⟩

/-! ## Reset -/

/-- Settles O41: the reset step is `applyReset`, whose only writer of the enable bit is an abandoned send. -/
theorem resetWhateverTheState : Obligations.ResetWhateverTheState :=
  fun s hm => ⟨_, step_reset hm, rfl, rfl, rfl, rfl, s.applyReset_csN, s.applyReset_busEn, s.applyReset_cfg⟩

theorem reset_cleanEntry : State.reset.cleanEntry :=
  ⟨rfl, rfl, rfl, fun _ => rfl, rfl, rfl⟩

/-- Settles O42: the reset state is a CLEAN_ENTRY state with an empty trace, and such states meet the invariants. -/
theorem resetStateMeetsTheInvariants : Obligations.ResetStateMeetsTheInvariants :=
  ⟨rfl, rfl, rfl, rfl, rfl, rfl, rfl, rfl, rfl, reset_cleanEntry, ctlInv_of_cleanEntry reset_cleanEntry rfl rfl,
    pinInv_of_cleanEntry reset_cleanEntry, wireInv_of_cleanEntry reset_cleanEntry, traceInv_of_idle rfl rfl⟩

end Sys2Proof.Machine
